-- ==== Sys2Proof/Word.lean ====
section
/-! DEFINITION. The widths of 00_scope.md R7 and R9, and the closed sets of names the requests and the state are built from. -/

namespace Sys2Proof

/-- A byte on the bus (00_scope.md R9). -/
abbrev Byte := BitVec 8

/-- A value given to the CRC check, and a cached conversion time (00_scope.md R7, VALUE_W and TIME_W). -/
abbrev Half := BitVec 16

/-- A register of the CRC datapath (00_scope.md R7, CRC_REG_W). -/
abbrev CrcWord := BitVec 24

/-- A host request word (00_scope.md R7, REQ_W). -/
abbrev RequestWord := BitVec 32

/-- The acquisition mode (10_state.md R21). -/
inductive AcqMode where
  | hold
  | poll
  deriving DecidableEq, Repr

/-- The four resolution levels L0 to L3 (30_encoding.md R93). -/
inductive Level where
  | L0
  | L1
  | L2
  | L3
  deriving DecidableEq, Repr

/-- What one measurement measures: q = T or q = H (44_acquisition_engine.md R160). -/
inductive Quantity where
  | temperature
  | humidity
  deriving DecidableEq, Repr

end Sys2Proof
end

