-- ==== Sys2Proof/Config.lean ====
section
/-! DEFINITION. The implementation parameters of 00_scope.md R7, and the free values: constants with no body, for the values the spec leaves unspecified. -/

namespace Sys2Proof.Config

/-- DEV_ADDR: a number passed unchanged to the transport (20_memory.md R50). -/
def devAddr : Nat := 0x40

/-- CRC_ITER (00_scope.md R7). -/
def crcIter : Nat := 16

/-- CRC_POLY0 (40_crc8_validator.md R111). -/
def crcPoly0 : CrcWord := 0x988000

/-- CRC_MSB0 (40_crc8_validator.md R111; 92_eei_decisions.md D7). -/
def crcMsb0 : CrcWord := 0x800000

/-- CRC_MASK0 (40_crc8_validator.md R111; 92_eei_decisions.md D7). -/
def crcMask0 : CrcWord := 0xFF8000

/-- T_RESET_MS as the delay primitive takes it (00_scope.md R7; 20_memory.md R57). -/
def resetSettleMs : BitVec 32 := 15

/-- RESET_MODE. DESIGN CHOICE of the spec, 92_eei_decisions.md D9 (notes/assumptions/7.md). -/
def resetMode : AcqMode := .poll

/-- The user register's field masks (10_state.md R33; 92_eei_decisions.md D11, notes/assumptions/18.md). -/
def resMask : Byte := 0x81
/-- End-of-battery flag (10_state.md R33). -/
def eobMask : Byte := 0x40
/-- Reserved bits 5:3 (10_state.md R33, 30_encoding.md R98). -/
def reservedMask : Byte := 0x38
/-- Heater-enable (10_state.md R33). -/
def heaterMask : Byte := 0x04
/-- OTP-reload-disable (10_state.md R33). -/
def otpMask : Byte := 0x02

/-- A byte the spec leaves unspecified: of `rxbuf`, of `regmirror`, of V (10_state.md R24, R25; notes/assumptions/9.md). -/
opaque freeByte : Nat → Byte

/-- A CRC datapath register outside a check (10_state.md R26; notes/assumptions/9.md). -/
opaque freeCrcWord : Nat → CrcWord

/-- The request code in the latch after a hardware reset (10_state.md R36; notes/assumptions/9.md). -/
opaque freeOp : Nat → BitVec 4

/-- The argument in the latch after a hardware reset (10_state.md R36; notes/assumptions/9.md). -/
opaque freeArg : Nat → BitVec 24

/-- The status code in the response register after a hardware reset (10_state.md R36; notes/assumptions/9.md). -/
opaque freeStatusCode : Nat → BitVec 2

end Sys2Proof.Config
end

