-- ==== Sys2Proof/Syntax.lean ====
section
/-! DEFINITION. The instructions: one constructor for each of the 21 rows of spec/opcode_table.json, twelve host requests and nine bus opcodes. -/

namespace Sys2Proof

/-- The rows of the opcode table. The operand types are exactly as wide as the table's fields. -/
inductive Instr where
  /-- 46_system_ops.md R190 -/
  | init
  /-- 46_system_ops.md R191 -/
  | reset
  /-- 46_system_ops.md R192 -/
  | setMode (m : AcqMode)
  /-- 43_timing_and_resolution.md R152 -/
  | setResolution (l : Level)
  /-- 44_acquisition_engine.md R168 -/
  | readTemperature
  /-- 44_acquisition_engine.md R169 -/
  | readHumidity
  /-- 42_register_manager.md R141 -/
  | readRegister
  /-- 42_register_manager.md R144 -/
  | writeRegister (v : Byte)
  /-- 45_serial_number.md R185 -/
  | readSerial
  /-- 40_crc8_validator.md R120 -/
  | crcCheck (value : Half) (crc : Byte)
  /-- 41_bus_command_layer.md R134 -/
  | writeCommand (c : Byte)
  /-- 41_bus_command_layer.md R135 -/
  | writeCommandNoStop (c : Byte)
  /-- 30_encoding.md R87, opcode 0xFE; 46_system_ops.md R191 -/
  | busReset
  /-- 30_encoding.md R87, opcode 0xE3; 44_acquisition_engine.md R162 -/
  | busReadTempHold
  /-- 30_encoding.md R87, opcode 0xF3; 44_acquisition_engine.md R163 -/
  | busReadTempPoll
  /-- 30_encoding.md R87, opcode 0xE5; 44_acquisition_engine.md R162 -/
  | busReadHumidityHold
  /-- 30_encoding.md R87, opcode 0xF5; 44_acquisition_engine.md R163 -/
  | busReadHumidityPoll
  /-- 30_encoding.md R87, opcode 0xFA0F; 45_serial_number.md R181 -/
  | busReadSerialFirst8
  /-- 30_encoding.md R87, opcode 0xFCC9; 45_serial_number.md R182 -/
  | busReadSerialLast6
  /-- 30_encoding.md R87, opcode 0xE6 and a data byte; 42_register_manager.md R142 -/
  | busWriteUserRegister (d : Byte)
  /-- 30_encoding.md R87, opcode 0xE7; 42_register_manager.md R140 -/
  | busReadUserRegister
  deriving DecidableEq, Repr

/-- What the decoder reads: a host request word (30_encoding.md R80), or the bytes of a bus frame in bus order
(30_encoding.md R85). Only request words come from the host; that a frame can be run by itself is the model's:
notes/assumptions/4.md. -/
inductive Packet where
  | request (w : RequestWord)
  | frame (bytes : List Byte)
  deriving DecidableEq, Repr

/-- Why the decoder turns a packet away (30_encoding.md R95). -/
inductive Reject where
  /-- `op` in 0xC to 0xF -/
  | reservedOp (op : BitVec 4)
  /-- bits 27:24 not zero -/
  | reservedBits (bits : BitVec 4)
  /-- an argument bit that the request does not name is not zero -/
  | unusedArgument (op : BitVec 4) (arg : BitVec 24)
  /-- a frame that is no frame of 30_encoding.md R87 -/
  | unknownFrame (bytes : List Byte)
  deriving DecidableEq, Repr

end Sys2Proof
end

