-- ==== Sys2Proof/WellFormed.lean ====
section
/-! DEFINITION. Which packets are well formed: the masks and patterns of spec/opcode_table.json, written as the table writes them and independently of the decoder. -/

namespace Sys2Proof

/-- One row of the table: a word is the row's when `word & mask` = `pattern` (30_encoding.md, opening). -/
structure Row (w : Nat) where
  pattern : BitVec w
  mask : BitVec w
  deriving DecidableEq, Repr

def Row.covers {w : Nat} (r : Row w) (x : BitVec w) : Bool := x &&& r.mask == r.pattern

/-- The rows of format HOSTREQ (30_encoding.md R81). -/
def requestRows : List (Row 32) :=
  [ ⟨0x00000000, 0xFFFFFFFF⟩, ⟨0x10000000, 0xFFFFFFFF⟩, ⟨0x20000000, 0xFFFFFFFE⟩, ⟨0x30000000, 0xFFFFFFFC⟩,
    ⟨0x40000000, 0xFFFFFFFF⟩, ⟨0x50000000, 0xFFFFFFFF⟩, ⟨0x60000000, 0xFFFFFFFF⟩, ⟨0x70000000, 0xFFFFFF00⟩,
    ⟨0x80000000, 0xFFFFFFFF⟩, ⟨0x90000000, 0xFF000000⟩, ⟨0xA0000000, 0xFFFFFF00⟩, ⟨0xB0000000, 0xFFFFFF00⟩ ]

/-- The rows of format BUS8 (30_encoding.md R87). -/
def frameRows8 : List (Row 8) :=
  [ ⟨0xFE, 0xFF⟩, ⟨0xE3, 0xFF⟩, ⟨0xF3, 0xFF⟩, ⟨0xE5, 0xFF⟩, ⟨0xF5, 0xFF⟩, ⟨0xE7, 0xFF⟩ ]

/-- The rows of formats BUS16 and BUSWREG, first byte high (30_encoding.md R87, R89). -/
def frameRows16 : List (Row 16) :=
  [ ⟨0xFA0F, 0xFFFF⟩, ⟨0xFCC9, 0xFFFF⟩, ⟨0xE600, 0xFF00⟩ ]

/-- A well-formed packet is covered by a row (30_encoding.md R82, R95). -/
def Packet.wf : Packet → Bool
  | .request w => requestRows.any (·.covers w)
  | .frame [b] => frameRows8.any (·.covers b)
  | .frame [hi, lo] => frameRows16.any (·.covers (hi ++ lo))
  | .frame _ => false

/-- 30_encoding.md R82: "The named fields take every value of their width". The operand types of Instr have exactly
those widths, so an instruction has nothing left to check; what can be ill formed is a packet. -/
def Instr.wf : Instr → Bool
  | .init => true
  | .reset => true
  | .setMode _ => true
  | .setResolution _ => true
  | .readTemperature => true
  | .readHumidity => true
  | .readRegister => true
  | .writeRegister _ => true
  | .readSerial => true
  | .crcCheck _ _ => true
  | .writeCommand _ => true
  | .writeCommandNoStop _ => true
  | .busReset => true
  | .busReadTempHold => true
  | .busReadTempPoll => true
  | .busReadHumidityHold => true
  | .busReadHumidityPoll => true
  | .busReadSerialFirst8 => true
  | .busReadSerialLast6 => true
  | .busWriteUserRegister _ => true
  | .busReadUserRegister => true

end Sys2Proof
end

