-- ==== Sys2Proof/Decode.lean ====
section
/-! DEFINITION. The decoder, total on every packet and rejecting by name, and after it the encoder (30_encoding.md R80 to R97). -/

namespace Sys2Proof

/-! ### The opcode bytes of 30_encoding.md R87 -/

def Opcode.reset : Byte := 0xFE
def Opcode.readTempHold : Byte := 0xE3
def Opcode.readTempPoll : Byte := 0xF3
def Opcode.readHumidityHold : Byte := 0xE5
def Opcode.readHumidityPoll : Byte := 0xF5
def Opcode.writeUserRegister : Byte := 0xE6
def Opcode.readUserRegister : Byte := 0xE7
def Opcode.readSerialFirst8 : Half := 0xFA0F
def Opcode.readSerialLast6 : Half := 0xFCC9

/-- 30_encoding.md R89: a 16-bit opcode goes out high byte first. -/
def splitOpcode (c : Half) : List Byte := [c.extractLsb' 8 8, c.extractLsb' 0 8]

/-! ### Field codes -/

/-- 30_encoding.md R94: 0 selects HOLD, 1 selects POLL. -/
def AcqMode.ofBit (m : BitVec 1) : AcqMode := if m = 0 then .hold else .poll

def AcqMode.bit : AcqMode → BitVec 1
  | .hold => 0
  | .poll => 1

/-- 30_encoding.md R93: the level number. -/
def Level.ofCode (l : BitVec 2) : Level :=
  if l = 0 then .L0 else if l = 1 then .L1 else if l = 2 then .L2 else .L3

def Level.code : Level → BitVec 2
  | .L0 => 0
  | .L1 => 1
  | .L2 => 2
  | .L3 => 3

/-! ### The decoder -/

/-- 30_encoding.md R82: argument bits `hi:lo` that the request does not name must be zero, or the word is malformed (R95). -/
def whenZero (unused : BitVec 24) (op : BitVec 4) (arg : BitVec 24) (i : Instr) : Except Reject Instr :=
  if unused = 0 then .ok i else .error (.unusedArgument op arg)

/-- The request codes of 30_encoding.md R81. -/
def decodeOp (op : BitVec 4) (arg : BitVec 24) : Except Reject Instr :=
  if op = 0x0 then whenZero arg op arg .init
  else if op = 0x1 then whenZero arg op arg .reset
  else if op = 0x2 then whenZero (arg &&& 0xFFFFFE) op arg (.setMode (AcqMode.ofBit (arg.extractLsb' 0 1)))
  else if op = 0x3 then whenZero (arg &&& 0xFFFFFC) op arg (.setResolution (Level.ofCode (arg.extractLsb' 0 2)))
  else if op = 0x4 then whenZero arg op arg .readTemperature
  else if op = 0x5 then whenZero arg op arg .readHumidity
  else if op = 0x6 then whenZero arg op arg .readRegister
  else if op = 0x7 then whenZero (arg &&& 0xFFFF00) op arg (.writeRegister (arg.extractLsb' 0 8))
  else if op = 0x8 then whenZero arg op arg .readSerial
  else if op = 0x9 then .ok (.crcCheck (arg.extractLsb' 8 16) (arg.extractLsb' 0 8))
  else if op = 0xA then whenZero (arg &&& 0xFFFF00) op arg (.writeCommand (arg.extractLsb' 0 8))
  else if op = 0xB then whenZero (arg &&& 0xFFFF00) op arg (.writeCommandNoStop (arg.extractLsb' 0 8))
  else .error (.reservedOp op)

/-- `op` = bits 31:28 of a request word (30_encoding.md R80). -/
def requestOp (w : RequestWord) : BitVec 4 := w.extractLsb' 28 4

/-- `arg` = bits 23:0 of a request word (30_encoding.md R80). -/
def requestArg (w : RequestWord) : BitVec 24 := w.extractLsb' 0 24

/-- 30_encoding.md R80: `op` = bits 31:28, bits 27:24 zero, `arg` = bits 23:0. -/
def decodeRequest (w : RequestWord) : Except Reject Instr :=
  if w.extractLsb' 24 4 = 0 then decodeOp (requestOp w) (requestArg w)
  else .error (.reservedBits (w.extractLsb' 24 4))

/-- The frames of 30_encoding.md R87; the first byte of a frame determines the command (R97). -/
def decodeFrame (bytes : List Byte) : Except Reject Instr :=
  match bytes with
  | [b] =>
    if b = Opcode.reset then .ok .busReset
    else if b = Opcode.readTempHold then .ok .busReadTempHold
    else if b = Opcode.readTempPoll then .ok .busReadTempPoll
    else if b = Opcode.readHumidityHold then .ok .busReadHumidityHold
    else if b = Opcode.readHumidityPoll then .ok .busReadHumidityPoll
    else if b = Opcode.readUserRegister then .ok .busReadUserRegister
    else .error (.unknownFrame bytes)
  | [hi, lo] =>
    if hi = Opcode.writeUserRegister then .ok (.busWriteUserRegister lo)
    else if hi ++ lo = Opcode.readSerialFirst8 then .ok .busReadSerialFirst8
    else if hi ++ lo = Opcode.readSerialLast6 then .ok .busReadSerialLast6
    else .error (.unknownFrame bytes)
  | _ => .error (.unknownFrame bytes)

def decode : Packet → Except Reject Instr
  | .request w => decodeRequest w
  | .frame bytes => decodeFrame bytes

/-! ### The encoder -/

/-- A request word from its code and its argument (30_encoding.md R80). -/
def requestWord (op : BitVec 4) (arg : BitVec 24) : RequestWord := op ++ (0#4) ++ arg

def encode : Instr → Packet
  | .init => .request (requestWord 0x0 0)
  | .reset => .request (requestWord 0x1 0)
  | .setMode m => .request (requestWord 0x2 (m.bit.zeroExtend 24))
  | .setResolution l => .request (requestWord 0x3 (l.code.zeroExtend 24))
  | .readTemperature => .request (requestWord 0x4 0)
  | .readHumidity => .request (requestWord 0x5 0)
  | .readRegister => .request (requestWord 0x6 0)
  | .writeRegister v => .request (requestWord 0x7 (v.zeroExtend 24))
  | .readSerial => .request (requestWord 0x8 0)
  | .crcCheck value crc => .request (requestWord 0x9 (value ++ crc))
  | .writeCommand c => .request (requestWord 0xA (c.zeroExtend 24))
  | .writeCommandNoStop c => .request (requestWord 0xB (c.zeroExtend 24))
  | .busReset => .frame [Opcode.reset]
  | .busReadTempHold => .frame [Opcode.readTempHold]
  | .busReadTempPoll => .frame [Opcode.readTempPoll]
  | .busReadHumidityHold => .frame [Opcode.readHumidityHold]
  | .busReadHumidityPoll => .frame [Opcode.readHumidityPoll]
  | .busReadSerialFirst8 => .frame (splitOpcode Opcode.readSerialFirst8)
  | .busReadSerialLast6 => .frame (splitOpcode Opcode.readSerialLast6)
  | .busWriteUserRegister d => .frame [Opcode.writeUserRegister, d]
  | .busReadUserRegister => .frame [Opcode.readUserRegister]

/-! ### Table words -/

/-- The packet whose bits are `w` as spec/opcode_table.json numbers them: 32 bits a request word, 8 bits a one-byte frame,
16 bits a two-byte frame with its first byte high. -/
def tablePacket (nbits w : Nat) : Option Packet :=
  if 2 ^ nbits ≤ w then none
  else if nbits = 32 then some (.request (BitVec.ofNat 32 w))
  else if nbits = 16 then some (.frame (splitOpcode (BitVec.ofNat 16 w)))
  else if nbits = 8 then some (.frame [BitVec.ofNat 8 w])
  else none

/-- The instruction the decoder reads from a table word. -/
def decodeTableWord (nbits w : Nat) : Option Instr :=
  match tablePacket nbits w with
  | none => none
  | some p =>
    match decode p with
    | .ok i => some i
    | .error _ => none

end Sys2Proof
end

