-- ==== Sys2Proof/Machine/State.lean ====
section
/-! DEFINITION. The state of the block (10_state.md R20 to R36), the answers it waits for, the calls it makes, why a step may stop, and the state after reset. Plain data throughout. -/

namespace Sys2Proof.Machine

/-- The sequencer phases (10_state.md R30). -/
inductive Phase where
  | idle
  | wCall
  | rCall
  | dCall
  | iCall
  | crcRun
  | localStep
  | done
  deriving DecidableEq, Repr

/-- A transport status; `other` is any value outside the stated domain (20_memory.md R56, 30_encoding.md R100). -/
inductive TransportStatus where
  | ok
  | bufferOverflow
  | timeout
  | other
  deriving DecidableEq, Repr

/-- The four status outcomes (30_encoding.md R84). -/
inductive Status where
  | ok
  | noAcknowledge
  | transferError
  | crcError
  deriving DecidableEq, Repr

/-- The response register and a response taken by the host (10_state.md R28, 30_encoding.md R83). `none` is the spec's
"a model gives it no value" (notes/assumptions/12.md). -/
structure Response where
  status : Status
  data : Option (BitVec 64)
  deriving DecidableEq, Repr

/-- The request latch (10_state.md R29). -/
structure RequestLatch where
  op : BitVec 4
  arg : BitVec 24
  deriving DecidableEq, Repr

/-- The Device Session (10_state.md R21, R22). -/
structure Session where
  acquisitionMode : AcqMode
  temperatureConversionTimeUs : Half
  humidityConversionTimeUs : Half
  deriving DecidableEq, Repr

/-- The four CRC datapath registers (10_state.md R26). -/
structure CrcRegs where
  result : CrcWord
  msb : CrcWord
  mask : CrcWord
  poly : CrcWord
  deriving DecidableEq, Repr

/-- A call the block makes on the transport or on the delay primitive (20_memory.md R52 to R57). -/
inductive Call where
  | init
  | writeWait (address : Nat) (bytes : List Byte)
  | writeWaitNoStop (address : Nat) (bytes : List Byte)
  | readWait (address : Nat) (length : Nat)
  | delay (milliseconds : BitVec 32)
  deriving DecidableEq, Repr

/-- The transport's answer to a write or read call; the bytes matter only to a read that answers `ok`
(20_memory.md R53 to R56). -/
structure Reply where
  status : TransportStatus
  bytes : List Byte
  deriving DecidableEq, Repr

/-- Where a delay call takes its argument from: the settle time of RESET, or the session's conversion time
(46_system_ops.md R191, 44_acquisition_engine.md R164). -/
inductive DelaySource where
  | settle
  | conversion (q : Quantity)
  deriving DecidableEq, Repr

/-- What a CRC check takes its value and its checksum from (40_crc8_validator.md R120; 30_encoding.md R90). -/
inductive CheckSource where
  /-- the operands of CRC_CHECK -/
  | operands (value : Half) (crc : Byte)
  /-- one data byte `rxbuf[i]`, checksum `rxbuf[i+1]` -/
  | pair (i : Nat)
  /-- two data bytes `rxbuf[i]`, `rxbuf[i+1]`, checksum `rxbuf[i+2]` -/
  | triple (i : Nat)
  deriving DecidableEq, Repr

/-- One step of a request's path: each is one visit to a phase (10_state.md R30, R31). -/
inductive Micro where
  /-- `MemWrite(0x40, n, bytes)` with stop, `MemWriteNS` without (00_scope.md R10) -/
  | write (stop : Bool) (bytes : List Byte)
  /-- `MemWrite(0x40, 2, [0xE6, regmirror])` (42_register_manager.md R142) -/
  | writeMirror
  /-- `MemRead(0x40, len)` into `rxbuf[base..]` -/
  | read (len base : Nat)
  /-- `MemRead(0x40, 1)` into `rxbuf[0]` and on into `regmirror` (42_register_manager.md R140) -/
  | readMirror
  /-- `Delay(ms)` -/
  | delay (source : DelaySource)
  /-- `transport.init()`, then `inited <- 1` (46_system_ops.md R190) -/
  | init
  /-- one CRC check (40_crc8_validator.md R111 to R114) -/
  | check (source : CheckSource)
  /-- all three session fields to their defaults (46_system_ops.md R190) -/
  | defaults
  /-- both session times from one row (43_timing_and_resolution.md R152, 46_system_ops.md R191) -/
  | times (l : Level)
  /-- the acquisition mode (46_system_ops.md R192) -/
  | mode (m : AcqMode)
  /-- `V <- (regmirror & 0x7E) | RES_CODE[l]` (43_timing_and_resolution.md R152) -/
  | selectV (l : Level)
  /-- `regmirror <- Merge(regmirror, V)` (42_register_manager.md R142, R143) -/
  | merge
  deriving DecidableEq, Repr

/-- What an OK response carries (30_encoding.md R83). -/
inductive Answer where
  | noData
  | rawValue
  | registerByte
  | serialNumber
  deriving DecidableEq, Repr

/-- The state. Its fields are listed one by one, with rule, width and reset value, in INVENTORY.md. -/
structure State where
  /-- 10_state.md R21, R22 -/
  session : Session
  /-- 10_state.md R24 -/
  rxbuf : Vector Byte 14
  /-- 10_state.md R25 -/
  regmirror : Byte
  /-- 10_state.md R26 -/
  crc : CrcRegs
  /-- 10_state.md R28 -/
  rsp : Response
  /-- 10_state.md R29 -/
  req : RequestLatch
  /-- 10_state.md R30 -/
  seq : Phase
  /-- 10_state.md R32 -/
  inited : Bool
  /-- 10_state.md R31: the steps of the current request not yet finished, the one in progress first -/
  todo : List Micro
  /-- 10_state.md R31, 30_encoding.md R83: what the current request answers when it ends OK -/
  answer : Answer
  /-- the operand V of WriteRegister(V) (42_register_manager.md R142; notes/assumptions/11.md) -/
  vArg : Byte
  /-- input: the request words the host will issue, first to come first (30_encoding.md R80; notes/assumptions/2.md) -/
  port : List RequestWord
  /-- the model's own input, empty in the spec's machine: bus frames of the opcode table to be run by themselves, ahead of
  the host's port; no host writes it and no step adds to it (notes/assumptions/4.md) -/
  frames : List (List Byte)
  /-- input: the host applies hardware reset (70_reset_and_hazards.md R257; notes/assumptions/8.md) -/
  resetPin : Bool
  /-- input: the transport's answers to write and read calls, in call order (20_memory.md R56; notes/assumptions/3.md) -/
  replies : List Reply
  /-- input: how many init() calls the transport returns from (20_memory.md R52; notes/assumptions/3.md) -/
  initReturns : Nat
  /-- input: how many delay calls the delay primitive returns from (20_memory.md R57; notes/assumptions/3.md) -/
  delayReturns : Nat
  /-- output: every call made, in order (20_memory.md R67; notes/assumptions/24.md) -/
  calls : List Call
  /-- output: every response the host has taken, in order (70_reset_and_hazards.md R256; notes/assumptions/24.md) -/
  responses : List Response
  /-- the model's own: selects the next free value (notes/assumptions/9.md) -/
  free : Nat
  deriving DecidableEq, Repr

/-- Why a step may fault. The hardware has no faults of its own (60_exceptions.md, opening). -/
inductive Fault where
  /-- Raised by `State.resume` when the phase is a busy one and the position does not fit it. Safe: the invariant of
  Safety.lean rules such states out, and no run from reset reaches one (notes/assumptions/16.md). -/
  | lostPosition
  deriving DecidableEq, Repr

/-- Why a step may be refused. -/
inductive Refusal where
  /-- Raised by an arm of `exec` whose instruction has no meaning yet. Safe. No arm is left that raises it. -/
  | notModelled (mnemonic : String)
  /-- Raised by `step` when the decoder rejects the packet it has taken: "A model refuses it by name"
  (30_encoding.md R95). Safe. -/
  | malformed (reason : Reject)
  /-- Raised by a bus-using meaning while `inited` = 0: "a model refuses it" (70_reset_and_hazards.md R242). Safe. -/
  | notInitialised
  /-- Raised by `execInit` while `inited` = 1: "a model refuses it" (46_system_ops.md R190). Safe. -/
  | secondInit
  /-- Raised by a read that the transport answers `ok` with another number of bytes than asked: "a model refuses it"
  (20_memory.md R59). Safe. -/
  | readLength (asked got : Nat)
  deriving DecidableEq, Repr

/-- The outcome of a step of this machine. -/
abbrev Outcome := Host.Outcome State Fault Refusal

/-- The machine right after power-on: 10_state.md R36 where it gives a value, and for every register it calls unspecified
the value named in notes/assumptions/6.md (DESIGN CHOICE). Nothing is on the port, no frame waits and no answer is pending. -/
def State.reset : State where
  session := ⟨Config.resetMode, 50000, 16000⟩
  rxbuf := Vector.replicate 14 0
  regmirror := 0
  crc := ⟨0, 0, 0, 0⟩
  rsp := ⟨.ok, none⟩
  req := ⟨0, 0⟩
  seq := .idle
  inited := false
  todo := []
  answer := .noData
  vArg := 0
  port := []
  frames := []
  resetPin := false
  replies := []
  initReturns := 0
  delayReturns := 0
  calls := []
  responses := []
  free := 0

end Sys2Proof.Machine
end

