-- ==== Sys2Proof/Machine/Crc.lean ====
section
/-! DEFINITION. The CRC-8 datapath: the bit-serial algorithm of 40_crc8_validator.md R111 to R113 and its byte-wise form of R116. -/

namespace Sys2Proof.Machine

/-- 40_crc8_validator.md R111: the start of a check. -/
def CrcRegs.load (value : Half) : CrcRegs where
  result := value.zeroExtend 24 <<< 8
  msb := Config.crcMsb0
  mask := Config.crcMask0
  poly := Config.crcPoly0

/-- 40_crc8_validator.md R112: one iteration. -/
def CrcRegs.iterate (r : CrcRegs) : CrcRegs where
  result :=
    if r.result &&& r.msb ≠ 0 then ((r.result ^^^ r.poly) &&& r.mask) ||| (r.result &&& ~~~r.mask)
    else r.result
  msb := r.msb >>> 1
  mask := r.mask >>> 1
  poly := r.poly >>> 1

/-- `n` iterations. -/
def CrcRegs.iterateN : Nat → CrcRegs → CrcRegs
  | 0, r => r
  | n + 1, r => CrcRegs.iterateN n r.iterate

/-- The datapath after a check of `value` (40_crc8_validator.md R112, R113). -/
def CrcRegs.afterCheck (value : Half) : CrcRegs := CrcRegs.iterateN Config.crcIter (CrcRegs.load value)

/-- 40_crc8_validator.md R113: `Crc8(value)` is `crc_result[7:0]` at the end of a check. -/
def crc8 (value : Half) : Byte := (CrcRegs.afterCheck value).result.extractLsb' 0 8

/-- One of the eight repetitions of the byte-wise form (40_crc8_validator.md R116). -/
def crcShift (c : Byte) : Byte := if c.getMsbD 0 then (c <<< 1) ^^^ 0x31 else c <<< 1

/-- `n` of them. -/
def crcShiftN : Nat → Byte → Byte
  | 0, c => c
  | n + 1, c => crcShiftN n (crcShift c)

/-- The byte-wise form of 40_crc8_validator.md R116, high byte first. -/
def crc8Bytewise (value : Half) : Byte :=
  crcShiftN 8 (crcShiftN 8 (value.extractLsb' 8 8) ^^^ value.extractLsb' 0 8)

end Sys2Proof.Machine
end

