-- ==== Sys2Proof/Machine/Flags.lean ====
section
/-! DEFINITION. Every computation of a status outcome: the mapping of transport statuses, the CRC comparison, and the numbers of both enumerations. -/

namespace Sys2Proof.Machine

/-- 41_bus_command_layer.md R130: `MapStatus`. -/
def mapStatus : TransportStatus → Status
  | .ok => .ok
  | .bufferOverflow => .noAcknowledge
  | .timeout => .transferError
  | .other => .transferError

/-- 40_crc8_validator.md R114: the outcome of a check, `crc_result` = `zext_24(crc)`. -/
def checkStatus (regs : CrcRegs) (crc : Byte) : Status :=
  if regs.result = crc.zeroExtend 24 then .ok else .crcError

/-- 30_encoding.md R84: the two-bit code of an outcome (92_eei_decisions.md D3). -/
def Status.code : Status → BitVec 2
  | .ok => 0
  | .noAcknowledge => 1
  | .transferError => 2
  | .crcError => 3

/-- The outcome a code stands for (30_encoding.md R84). -/
def Status.ofCode (c : BitVec 2) : Status :=
  if c = 0 then .ok else if c = 1 then .noAcknowledge else if c = 2 then .transferError else .crcError

/-- 30_encoding.md R100: the number of a transport status where one is wanted (92_eei_decisions.md D4). -/
def TransportStatus.code : TransportStatus → BitVec 2
  | .ok => 0
  | .bufferOverflow => 1
  | .timeout => 2
  | .other => 3

end Sys2Proof.Machine
end

