-- ==== Sys2Proof/Machine/Operands.lean ====
section
/-! DEFINITION. Every operand form: bytes of the receive buffer, the raw value, the CRC operands, the delay argument, the register merge, the level codes and times, the response data. -/

namespace Sys2Proof.Machine

/-! ### The receive buffer (10_state.md R24) -/

/-- `rxbuf[i]`. Every index a path uses is below 14 (10_state.md R24). -/
def State.rx (s : State) (i : Nat) : Byte := if h : i < 14 then s.rxbuf[i] else 0

/-- `rxbuf[base + k] <- bytes[k]` for every byte of the list. -/
def fillBuffer (buf : Vector Byte 14) (base : Nat) (bytes : List Byte) : Vector Byte 14 :=
  Vector.ofFn fun j => if base ≤ j.val then bytes.getD (j.val - base) buf[j] else buf[j]

/-- `n` free bytes, from the counter's value on (notes/assumptions/9.md). -/
def freeBytes (counter n : Nat) : List Byte := (List.range n).map fun k => Config.freeByte (counter + k)

/-! ### Values read from the buffer -/

/-- 30_encoding.md R88: `rxbuf[i] ++ rxbuf[i+1]`, the byte received first high, nothing masked. -/
def State.rawAt (s : State) (i : Nat) : Half := s.rx i ++ s.rx (i + 1)

/-- The 16-bit value a check is given (30_encoding.md R90). -/
def State.checkValue (s : State) : CheckSource → Half
  | .operands value _ => value
  | .pair i => (s.rx i).zeroExtend 16
  | .triple i => s.rawAt i

/-- The checksum byte a check compares with (30_encoding.md R90). -/
def State.checkCrc (s : State) : CheckSource → Byte
  | .operands _ crc => crc
  | .pair i => s.rx (i + 1)
  | .triple i => s.rx (i + 2)

/-- 45_serial_number.md R183: `rxbuf[0]` in bits 63:56 down to `rxbuf[12]` in bits 7:0. -/
def State.serial (s : State) : BitVec 64 :=
  s.rx 0 ++ s.rx 2 ++ s.rx 4 ++ s.rx 6 ++ s.rx 8 ++ s.rx 9 ++ s.rx 11 ++ s.rx 12

/-- 30_encoding.md R83: the data of an OK response. -/
def State.answerData (s : State) : Answer → Option (BitVec 64)
  | .noData => none
  | .rawValue => some ((s.rawAt 0).zeroExtend 64)
  | .registerByte => some (s.regmirror.zeroExtend 64)
  | .serialNumber => some s.serial

/-! ### The conversion timing table (43_timing_and_resolution.md R150) and the delay argument -/

/-- `TIME_T[l]`, in microseconds. -/
def timeT : Level → Half
  | .L0 => 50000
  | .L1 => 25000
  | .L2 => 13000
  | .L3 => 7000

/-- `TIME_H[l]`, in microseconds. -/
def timeH : Level → Half
  | .L0 => 16000
  | .L1 => 5000
  | .L2 => 3000
  | .L3 => 8000

/-- 30_encoding.md R91: microseconds to milliseconds, truncated, zero-extended to the delay primitive's width. -/
def toMs (timeUs : Half) : BitVec 32 := (timeUs / 1000).zeroExtend 32

/-- 44_acquisition_engine.md R164: `DelayMs(q)`. -/
def Session.delayMs (x : Session) : Quantity → BitVec 32
  | .temperature => toMs x.temperatureConversionTimeUs
  | .humidity => toMs x.humidityConversionTimeUs

def Session.delayArgument (x : Session) : DelaySource → BitVec 32
  | .settle => Config.resetSettleMs
  | .conversion q => x.delayMs q

/-! ### The user register (10_state.md R33) -/

/-- 30_encoding.md R92: the resolution, heater and OTP bits. -/
def wMask : Byte := Config.resMask ||| Config.heaterMask ||| Config.otpMask

/-- 42_register_manager.md R143: `Merge(R, V)`. -/
def mergeRegister (r v : Byte) : Byte := (r &&& ~~~wMask) ||| (v &&& wMask)

/-- `RES_CODE[l]` (30_encoding.md R93; 92_eei_decisions.md D10, notes/assumptions/18.md). -/
def resCode : Level → Byte
  | .L0 => 0x00
  | .L1 => 0x80
  | .L2 => 0x01
  | .L3 => 0x81

/-- 43_timing_and_resolution.md R152: `(R1 & 0x7E) | RES_CODE[l]`. -/
def selectResolution (r : Byte) (l : Level) : Byte := (r &&& ~~~Config.resMask) ||| resCode l

end Sys2Proof.Machine
end

