-- ==== Sys2Proof/Machine/Ops.lean ====
section
/-! DEFINITION. The operations every meaning is made of: register writes, issuing a call and taking its answer, raising a status outcome and taking a response (in place of an exception and its return), hardware reset, and walking a request's path. -/

namespace Sys2Proof.Machine

/-! ### The port -/

/-- 30_encoding.md R80: on acceptance of a request word the block latches `req.op` and `req.arg`. -/
def State.accept (s : State) (w : RequestWord) (rest : List RequestWord) : State :=
  { s with port := rest, req := ⟨requestOp w, requestArg w⟩ }

/-- A frame to be run by itself is taken; it is no request and leaves the port and the latch as they are
(notes/assumptions/4.md and 5.md). -/
def State.takeFrame (s : State) (rest : List (List Byte)) : State := { s with frames := rest }

/-- The next packet, with the state after taking it: the host's next request word (70_reset_and_hazards.md R257 (a)), unless a
frame waits to be run by itself, which none does in the spec's machine. -/
def State.fetch (s : State) : Option (Packet × State) :=
  match s.frames with
  | bytes :: rest => some (.frame bytes, s.takeFrame rest)
  | [] =>
    match s.port with
    | [] => none
    | w :: rest => some (.request w, s.accept w rest)

/-- The boot condition under which a packet is accepted: INIT while `inited` = 0 (46_system_ops.md R190), a bus user while it
is 1, CRC_CHECK and SET_MODE at any time (70_reset_and_hazards.md R242). -/
def bootedFor (inited : Bool) : Packet → Bool
  | .frame _ => true
  | .request w =>
    if requestOp w = 0x0 then false
    else if requestOp w = 0x2 then inited
    else if requestOp w = 0x9 then inited
    else true

/-! ### Ending a request (60_exceptions.md R214, 10_state.md R28) -/

/-- `raise S`: the remaining steps are abandoned, `rsp.status <- S`, no data, `seq <- DONE`; nothing is saved and no call
is made to clean up (60_exceptions.md R214). -/
def State.raise (s : State) (status : Status) : State :=
  { s with rsp := ⟨status, none⟩, seq := .done, todo := [] }

/-- `rsp <- (OK, data)`, and the request is done. -/
def State.respond (s : State) (data : Option (BitVec 64)) : State :=
  { s with rsp := ⟨.ok, data⟩, seq := .done, todo := [] }

/-- The host takes the response and `seq <- IDLE` (60_exceptions.md R214, 70_reset_and_hazards.md R257 (b)). From here on
`rxbuf`, `regmirror` and V are unspecified (10_state.md R24, R25): they take free values (notes/assumptions/10.md).
DESIGN CHOICE: the latch keeps `req.op` and `req.arg` until the next request word is accepted; 10_state.md R29 fixes them only until
the response is given, and R36 gives no value after INIT (notes/assumptions/26.md). -/
def State.takeResponse (s : State) : State :=
  { s with
    responses := s.responses ++ [s.rsp]
    seq := .idle
    todo := []
    rxbuf := fillBuffer s.rxbuf 0 (freeBytes s.free 14)
    regmirror := Config.freeByte (s.free + 14)
    vArg := Config.freeByte (s.free + 15)
    free := s.free + 16 }

/-! ### Unspecified contents (notes/assumptions/10.md) -/

/-- 10_state.md R24: the bytes a failing read was to fill are unspecified. -/
def State.spoilRead (s : State) (len base : Nat) : State :=
  { s with rxbuf := fillBuffer s.rxbuf base (freeBytes s.free len), free := s.free + len }

/-- 10_state.md R26: the CRC registers are unspecified outside a check. -/
def State.spoilCrc (s : State) : State :=
  { s with
    crc := ⟨Config.freeCrcWord s.free, Config.freeCrcWord (s.free + 1),
      Config.freeCrcWord (s.free + 2), Config.freeCrcWord (s.free + 3)⟩
    free := s.free + 4 }

/-! ### Session writes (10_state.md R23) -/

/-- Both session times, from one row of the table (43_timing_and_resolution.md R152). -/
def State.setTimes (s : State) (l : Level) : State :=
  { s with session :=
    { s.session with temperatureConversionTimeUs := timeT l, humidityConversionTimeUs := timeH l } }

/-- The acquisition mode (46_system_ops.md R192). -/
def State.setMode (s : State) (m : AcqMode) : State :=
  { s with session := { s.session with acquisitionMode := m } }

/-- The whole session, as INIT and hardware reset leave it (46_system_ops.md R190, 70_reset_and_hazards.md R240). -/
def State.setDefaults (s : State) : State := (s.setMode Config.resetMode).setTimes .L0

/-- 70_reset_and_hazards.md R240. Registers it leaves unspecified take free values; inputs and outputs of the other agents
are not the block's and stay (notes/assumptions/8.md). -/
def State.hardwareReset (s : State) : State :=
  { s.setDefaults.spoilCrc with
    seq := .idle
    inited := false
    todo := []
    answer := .noData
    rxbuf := fillBuffer s.rxbuf 0 (freeBytes (s.free + 4) 14)
    regmirror := Config.freeByte (s.free + 18)
    vArg := Config.freeByte (s.free + 19)
    req := ⟨Config.freeOp (s.free + 20), Config.freeArg (s.free + 20)⟩
    rsp := ⟨Status.ofCode (Config.freeStatusCode (s.free + 20)), none⟩
    resetPin := false
    free := s.free + 21 }

/-! ### Entering a step: the call it makes -/

/-- The phase in which the block does a step (10_state.md R30). -/
def Micro.phase : Micro → Phase
  | .write _ _ => .wCall
  | .writeMirror => .wCall
  | .read _ _ => .rCall
  | .readMirror => .rCall
  | .delay _ => .dCall
  | .init => .iCall
  | .check _ => .crcRun
  | .defaults => .localStep
  | .times _ => .localStep
  | .mode _ => .localStep
  | .selectV _ => .localStep
  | .merge => .localStep

/-- The call a step makes on entering its phase, with its arguments (20_memory.md R52 to R57). -/
def State.callOf (s : State) : Micro → List Call
  | .write true bytes => [.writeWait Config.devAddr bytes]
  | .write false bytes => [.writeWaitNoStop Config.devAddr bytes]
  | .writeMirror => [.writeWait Config.devAddr [Opcode.writeUserRegister, s.regmirror]]
  | .read len _ => [.readWait Config.devAddr len]
  | .readMirror => [.readWait Config.devAddr 1]
  | .delay source => [.delay (s.session.delayArgument source)]
  | .init => [.init]
  | .check _ => []
  | .defaults => []
  | .times _ => []
  | .mode _ => []
  | .selectV _ => []
  | .merge => []

/-- Entering `CRC_RUN` loads the datapath (40_crc8_validator.md R111, R119); other steps leave it. -/
def State.crcOnEntry (s : State) : Micro → CrcRegs
  | .check source => CrcRegs.load (s.checkValue source)
  | _ => s.crc

/-- `seq` moves to the phase of the next step of the path and its call is issued; where the path is at its end, the request
ends OK with its answer (10_state.md R30, R31). -/
def State.enter (s : State) : State :=
  match s.todo with
  | [] => s.respond (s.answerData s.answer)
  | m :: _ => { s with seq := m.phase, calls := s.calls ++ s.callOf m, crc := s.crcOnEntry m }

/-! ### Leaving a step: its answer -/

/-- What becomes of a step that the block is in. -/
inductive Progress where
  /-- it is finished: the path goes on from this state -/
  | go (s : State)
  /-- the agent it waits for has not answered -/
  | stay
  /-- the request has ended in this state -/
  | stop (s : State)
  /-- the spec gives the answer no meaning -/
  | refuse (r : Refusal)

/-- 41_bus_command_layer.md R131, R132: the answer to a write, and `Try(ts)`. -/
def State.awaitWrite (s : State) : Progress :=
  match s.replies with
  | [] => .stay
  | r :: rest =>
    match mapStatus r.status with
    | .ok => .go { s with replies := rest }
    | failure => .stop ({ s with replies := rest }.raise failure)

/-- 20_memory.md R55: the answer to a read of `len` bytes into `rxbuf[base..]`, and `Try(ts)`. With a failing status the
bytes are ignored; with T_OK there are exactly `len` of them, or a model refuses (R59). -/
def State.awaitRead (s : State) (len base : Nat) : Progress :=
  match s.replies with
  | [] => .stay
  | r :: rest =>
    match mapStatus r.status with
    | .ok =>
      if r.bytes.length = len then
        .go { s with replies := rest, rxbuf := fillBuffer s.rxbuf base r.bytes }
      else .refuse (.readLength len r.bytes.length)
    | failure => .stop (({ s with replies := rest }.spoilRead len base).raise failure)

/-- 42_register_manager.md R140: the byte read goes on from `rxbuf[0]` into `regmirror`. -/
def State.awaitReadMirror (s : State) : Progress :=
  match s.awaitRead 1 0 with
  | .go t => .go { t with regmirror := t.rx 0 }
  | other => other

/-- 20_memory.md R57: the delay primitive returns, or never does. -/
def State.awaitDelay (s : State) : Progress :=
  match s.delayReturns with
  | 0 => .stay
  | n + 1 => .go { s with delayReturns := n }

/-- 46_system_ops.md R190: `init()` returns nothing, and then `inited <- 1`. -/
def State.awaitInit (s : State) : Progress :=
  match s.initReturns with
  | 0 => .stay
  | n + 1 => .go { s with initReturns := n, inited := true }

/-- 40_crc8_validator.md R112 to R114: sixteen iterations on the loaded datapath, then the comparison. -/
def State.runCheck (s : State) (source : CheckSource) : Progress :=
  match checkStatus (CrcRegs.iterateN Config.crcIter s.crc) (s.checkCrc source) with
  | .ok => .go s.spoilCrc
  | failure => .stop (s.spoilCrc.raise failure)

/-- Each step of a path, from its phase on. -/
def State.leave (s : State) : Micro → Progress
  | .write _ _ => s.awaitWrite
  | .writeMirror => s.awaitWrite
  | .read len base => s.awaitRead len base
  | .readMirror => s.awaitReadMirror
  | .delay _ => s.awaitDelay
  | .init => s.awaitInit
  | .check source => s.runCheck source
  | .defaults => .go s.setDefaults
  | .times l => .go (s.setTimes l)
  | .mode m => .go (s.setMode m)
  | .selectV l => .go { s with vArg := selectResolution s.regmirror l }
  | .merge => .go { s with regmirror := mergeRegister s.regmirror s.vArg }

/-! ### Walking a path -/

/-- The block goes on from the step it is in until the request ends or an answer is missing (10_state.md R31). -/
def State.run (s : State) : List Micro → Outcome
  | [] => .next s
  | m :: rest =>
    match s.leave m with
    | .go t => State.run { t with todo := rest }.enter rest
    | .stay => .next s
    | .stop t => .next t
    | .refuse r => .refused r

/-- A busy block: its phase and its position agree, and it goes on from there. -/
def State.resume (s : State) : Outcome :=
  match s.todo with
  | [] => .fault .lostPosition
  | m :: _ => if m.phase = s.seq then s.run s.todo else .fault .lostPosition

/-- One phase transition of a busy block (00_scope.md R8). -/
def State.advance (s : State) : Outcome :=
  match s.todo with
  | [] => .fault .lostPosition
  | m :: rest =>
    if m.phase = s.seq then
      match s.leave m with
      | .go t => .next { t with todo := rest }.enter
      | .stay => .next s
      | .stop t => .next t
      | .refuse r => .refused r
    else .fault .lostPosition

/-- A request starts on its path: the first step's phase is entered. -/
def State.start (s : State) (path : List Micro) (answer : Answer) : State :=
  { s with todo := path, answer := answer }.enter

/-- 70_reset_and_hazards.md R242: what uses the bus needs INIT first. -/
def State.startBus (s : State) (path : List Micro) (answer : Answer) : Outcome :=
  if s.inited then .next (s.start path answer) else .refused .notInitialised

/-- A request that has started runs on until it ends or an answer is missing. -/
def andRun : Outcome → Outcome
  | .next s => s.run s.todo
  | .fault f => .fault f
  | .refused r => .refused r

/-! ### The procedures of 41_bus_command_layer.md and 42_register_manager.md, as steps of a path -/

/-- `WriteCommand(c)` (41_bus_command_layer.md R131). -/
def writeCommand (c : Byte) : Micro := .write true [c]

/-- `WriteCommandNoStop(c)` (41_bus_command_layer.md R132). -/
def writeCommandNoStop (c : Byte) : Micro := .write false [c]

/-- `WriteCommand16NoStop(c)` (41_bus_command_layer.md R133). -/
def writeCommand16NoStop (c : Half) : Micro := .write false (splitOpcode c)

/-- `ReadRegister()` (42_register_manager.md R140). -/
def readRegisterSteps : List Micro := [writeCommand Opcode.readUserRegister, .readMirror]

/-- `WriteRegister(V)`, V in `vArg` (42_register_manager.md R142). -/
def writeRegisterSteps : List Micro := readRegisterSteps ++ [.merge, .writeMirror]

end Sys2Proof.Machine
end

