-- ==== Sys2Proof/Machine/BusCommand.lean ====
section
/-! DEFINITION. WRITE_COMMAND, WRITE_COMMAND_NO_STOP (41_bus_command_layer.md). -/

namespace Sys2Proof.Machine

/-- 41_bus_command_layer.md R134: every value of c is sent as given. -/
def startWriteCommand (c : Byte) (s : State) : Outcome := s.startBus [writeCommand c] .noData

def execWriteCommand (c : Byte) (s : State) : Outcome := andRun (startWriteCommand c s)

/-- 41_bus_command_layer.md R135. -/
def startWriteCommandNoStop (c : Byte) (s : State) : Outcome := s.startBus [writeCommandNoStop c] .noData

def execWriteCommandNoStop (c : Byte) (s : State) : Outcome := andRun (startWriteCommandNoStop c s)

end Sys2Proof.Machine
end

