-- ==== Sys2Proof/Machine/Acquisition.lean ====
section
/-! DEFINITION. READ_TEMPERATURE, READ_HUMIDITY (44_acquisition_engine.md). -/

namespace Sys2Proof.Machine

/-- 44_acquisition_engine.md R161: the command byte. -/
def acquireOpcode : Quantity → AcqMode → Byte
  | .temperature, .hold => Opcode.readTempHold
  | .temperature, .poll => Opcode.readTempPoll
  | .humidity, .hold => Opcode.readHumidityHold
  | .humidity, .poll => Opcode.readHumidityPoll

/-- Command, wait or hold, read: R162 in HOLD, R163 in POLL (44_acquisition_engine.md). -/
def acquireCycle (q : Quantity) : AcqMode → List Micro
  | .hold => [writeCommandNoStop (acquireOpcode q .hold), .read 3 0]
  | .poll => [writeCommand (acquireOpcode q .poll), .delay (.conversion q), .read 3 0]

/-- `Acquire(q)` (44_acquisition_engine.md R160): the cycle, then the check of R165. -/
def acquireSteps (q : Quantity) (mode : AcqMode) : List Micro :=
  acquireCycle q mode ++ [.check (.triple 0)]

/-- 44_acquisition_engine.md R168; the mode is read once, at the start (R160). -/
def startReadTemperature (s : State) : Outcome :=
  s.startBus (acquireSteps .temperature s.session.acquisitionMode) .rawValue

def execReadTemperature (s : State) : Outcome := andRun (startReadTemperature s)

/-- 44_acquisition_engine.md R169. -/
def startReadHumidity (s : State) : Outcome :=
  s.startBus (acquireSteps .humidity s.session.acquisitionMode) .rawValue

def execReadHumidity (s : State) : Outcome := andRun (startReadHumidity s)

end Sys2Proof.Machine
end

