-- ==== Sys2Proof/Machine/SerialNumber.lean ====
section
/-! DEFINITION. READ_SERIAL (45_serial_number.md). -/

namespace Sys2Proof.Machine

/-- 45_serial_number.md R181. -/
def serialFirstCycle : List Micro := [writeCommand16NoStop Opcode.readSerialFirst8, .read 8 0]

/-- 45_serial_number.md R182. -/
def serialSecondCycle : List Micro := [writeCommand16NoStop Opcode.readSerialLast6, .read 6 8]

/-- 45_serial_number.md R184: six checks, after all four calls, in ascending index. -/
def serialChecks : List Micro :=
  [ .check (.pair 0), .check (.pair 2), .check (.pair 4), .check (.pair 6), .check (.triple 8), .check (.triple 11) ]

/-- 45_serial_number.md R185. -/
def startReadSerial (s : State) : Outcome :=
  s.startBus (serialFirstCycle ++ serialSecondCycle ++ serialChecks) .serialNumber

def execReadSerial (s : State) : Outcome := andRun (startReadSerial s)

end Sys2Proof.Machine
end

