-- ==== Sys2Proof/Machine/BusFrames.lean ====
section
/-! DEFINITION. The nine bus opcodes of 30_encoding.md R87, each run by itself: its frame, with or without stop, and what follows it, in the steps the requests use (notes/assumptions/4.md and 5.md). -/

namespace Sys2Proof.Machine

/-- 0xFE, with stop, followed by `Delay(15)` (30_encoding.md R87). -/
def startBusReset (s : State) : Outcome := s.startBus [writeCommand Opcode.reset, .delay .settle] .noData

def execBusReset (s : State) : Outcome := andRun (startBusReset s)

/-- 0xE3, no stop, followed by `R3` (30_encoding.md R87; 44_acquisition_engine.md R162). -/
def startBusReadTempHold (s : State) : Outcome := s.startBus (acquireCycle .temperature .hold) .noData

def execBusReadTempHold (s : State) : Outcome := andRun (startBusReadTempHold s)

/-- 0xF3, with stop, followed by the delay, then `R3` (30_encoding.md R87; 44_acquisition_engine.md R163). -/
def startBusReadTempPoll (s : State) : Outcome := s.startBus (acquireCycle .temperature .poll) .noData

def execBusReadTempPoll (s : State) : Outcome := andRun (startBusReadTempPoll s)

/-- 0xE5, no stop, followed by `R3` (30_encoding.md R87; 44_acquisition_engine.md R162). -/
def startBusReadHumidityHold (s : State) : Outcome := s.startBus (acquireCycle .humidity .hold) .noData

def execBusReadHumidityHold (s : State) : Outcome := andRun (startBusReadHumidityHold s)

/-- 0xF5, with stop, followed by the delay, then `R3` (30_encoding.md R87; 44_acquisition_engine.md R163). -/
def startBusReadHumidityPoll (s : State) : Outcome := s.startBus (acquireCycle .humidity .poll) .noData

def execBusReadHumidityPoll (s : State) : Outcome := andRun (startBusReadHumidityPoll s)

/-- 0xFA0F, no stop, followed by `R8` (30_encoding.md R87; 45_serial_number.md R181). -/
def startBusReadSerialFirst8 (s : State) : Outcome := s.startBus serialFirstCycle .noData

def execBusReadSerialFirst8 (s : State) : Outcome := andRun (startBusReadSerialFirst8 s)

/-- 0xFCC9, no stop, followed by `R6` (30_encoding.md R87; 45_serial_number.md R182). -/
def startBusReadSerialLast6 (s : State) : Outcome := s.startBus serialSecondCycle .noData

def execBusReadSerialLast6 (s : State) : Outcome := andRun (startBusReadSerialLast6 s)

/-- 0xE6 and the data byte d, with stop, followed by nothing (30_encoding.md R87; 42_register_manager.md R142). -/
def startBusWriteUserRegister (d : Byte) (s : State) : Outcome :=
  s.startBus [.write true [Opcode.writeUserRegister, d]] .noData

def execBusWriteUserRegister (d : Byte) (s : State) : Outcome := andRun (startBusWriteUserRegister d s)

/-- 0xE7, with stop, followed by `R1` (30_encoding.md R87; 42_register_manager.md R140). -/
def startBusReadUserRegister (s : State) : Outcome := s.startBus readRegisterSteps .noData

def execBusReadUserRegister (s : State) : Outcome := andRun (startBusReadUserRegister s)

end Sys2Proof.Machine
end

