-- ==== Sys2Proof/Machine/CrcValidator.lean ====
section
/-! DEFINITION. CRC_CHECK (40_crc8_validator.md). -/

namespace Sys2Proof.Machine

/-- 40_crc8_validator.md R120: one check of the operands; no call, and INIT is not needed. -/
def startCrcCheck (value : Half) (crc : Byte) (s : State) : Outcome :=
  .next (s.start [.check (.operands value crc)] .noData)

def execCrcCheck (value : Half) (crc : Byte) (s : State) : Outcome := andRun (startCrcCheck value crc s)

end Sys2Proof.Machine
end

