-- ==== Sys2Proof/Machine/RegisterManager.lean ====
section
/-! DEFINITION. READ_REGISTER, WRITE_REGISTER (42_register_manager.md). -/

namespace Sys2Proof.Machine

/-- 42_register_manager.md R141. -/
def startReadRegister (s : State) : Outcome := s.startBus readRegisterSteps .registerByte

def execReadRegister (s : State) : Outcome := andRun (startReadRegister s)

/-- 42_register_manager.md R144: `WriteRegister(v)`. -/
def startWriteRegister (v : Byte) (s : State) : Outcome :=
  { s with vArg := v }.startBus writeRegisterSteps .noData

def execWriteRegister (v : Byte) (s : State) : Outcome := andRun (startWriteRegister v s)

end Sys2Proof.Machine
end

