-- ==== Sys2Proof/Machine/Resolution.lean ====
section
/-! DEFINITION. SET_RESOLUTION (43_timing_and_resolution.md). -/

namespace Sys2Proof.Machine

/-- 43_timing_and_resolution.md R152: the times first, then `ReadRegister`, V, and `WriteRegister(V)`. -/
def setResolutionSteps (l : Level) : List Micro :=
  [.times l] ++ readRegisterSteps ++ [.selectV l] ++ writeRegisterSteps

def startSetResolution (l : Level) (s : State) : Outcome := s.startBus (setResolutionSteps l) .noData

def execSetResolution (l : Level) (s : State) : Outcome := andRun (startSetResolution l s)

end Sys2Proof.Machine
end

