-- ==== Sys2Proof/Machine/SystemOps.lean ====
section
/-! DEFINITION. INIT, RESET, SET_MODE (46_system_ops.md). Each request has where it starts (`start…`) and its meaning (`exec…`): it starts, then runs on. -/

namespace Sys2Proof.Machine

/-- 46_system_ops.md R190: INIT is accepted only while `inited` = 0; a second INIT is refused. -/
def startInit (s : State) : Outcome :=
  if s.inited then .refused .secondInit else .next (s.start [.defaults, .init] .noData)

def execInit (s : State) : Outcome := andRun (startInit s)

/-- 46_system_ops.md R191: the times are restored after a successful write and before the delay. -/
def startReset (s : State) : Outcome :=
  s.startBus [writeCommand Opcode.reset, .times .L0, .delay .settle] .noData

def execReset (s : State) : Outcome := andRun (startReset s)

/-- 46_system_ops.md R192: no call, and INIT is not needed. -/
def startSetMode (m : AcqMode) (s : State) : Outcome := .next (s.start [.mode m] .noData)

def execSetMode (m : AcqMode) (s : State) : Outcome := andRun (startSetMode m s)

end Sys2Proof.Machine
end

