-- ==== Sys2Proof/Machine/Dispatch.lean ====
section
/-! DEFINITION. One arm for each instruction: the call of its meaning. -/

namespace Sys2Proof.Machine

def exec (i : Instr) (s : State) : Host.Outcome State Fault Refusal :=
  match i with
  | .init => Sys2Proof.Machine.execInit s
  | .reset => Sys2Proof.Machine.execReset s
  | .setMode m => Sys2Proof.Machine.execSetMode m s
  | .setResolution l => Sys2Proof.Machine.execSetResolution l s
  | .readTemperature => Sys2Proof.Machine.execReadTemperature s
  | .readHumidity => Sys2Proof.Machine.execReadHumidity s
  | .readRegister => Sys2Proof.Machine.execReadRegister s
  | .writeRegister v => Sys2Proof.Machine.execWriteRegister v s
  | .readSerial => Sys2Proof.Machine.execReadSerial s
  | .crcCheck value crc => Sys2Proof.Machine.execCrcCheck value crc s
  | .writeCommand c => Sys2Proof.Machine.execWriteCommand c s
  | .writeCommandNoStop c => Sys2Proof.Machine.execWriteCommandNoStop c s
  | .busReset => Sys2Proof.Machine.execBusReset s
  | .busReadTempHold => Sys2Proof.Machine.execBusReadTempHold s
  | .busReadTempPoll => Sys2Proof.Machine.execBusReadTempPoll s
  | .busReadHumidityHold => Sys2Proof.Machine.execBusReadHumidityHold s
  | .busReadHumidityPoll => Sys2Proof.Machine.execBusReadHumidityPoll s
  | .busReadSerialFirst8 => Sys2Proof.Machine.execBusReadSerialFirst8 s
  | .busReadSerialLast6 => Sys2Proof.Machine.execBusReadSerialLast6 s
  | .busWriteUserRegister d => Sys2Proof.Machine.execBusWriteUserRegister d s
  | .busReadUserRegister => Sys2Proof.Machine.execBusReadUserRegister s

end Sys2Proof.Machine
end

