-- ==== Sys2Proof/Machine/Step.lean ====
section
/-! DEFINITION. One step of the machine: a host move while the block is idle, done or being reset, and otherwise the block going on from where it waits (70_reset_and_hazards.md R257, 10_state.md R30, R31). -/

namespace Sys2Proof.Machine

/-- One step. Hardware reset at any time; IDLE: the next packet, if there is one, is decoded and run; DONE: the host
takes the response; otherwise the current request goes on, as far as the answers reach. -/
def step (s : State) : Host.Outcome State Fault Refusal :=
  if s.resetPin then .next s.hardwareReset
  else
    match s.seq with
    | .idle =>
      match s.fetch with
      | none => .next s
      | some (p, t) =>
        match decode p with
        | .ok i => exec i t
        | .error e => .refused (.malformed e)
    | .done => .next s.takeResponse
    | .wCall => s.resume
    | .rCall => s.resume
    | .dCall => s.resume
    | .iCall => s.resume
    | .crcRun => s.resume
    | .localStep => s.resume

/-- `s` with the packet of a table word as the next one an idle block takes, booted as far as the packet needs, so that the very
next step runs it (notes/assumptions/21.md). -/
def State.withFetchWord (s : State) (nbits w : Nat) : State :=
  match tablePacket nbits w with
  | none => s
  | some (.request r) =>
    { s with
      port := r :: s.port
      frames := []
      seq := .idle
      todo := []
      resetPin := false
      inited := bootedFor s.inited (.request r) }
  | some (.frame bytes) =>
    { s with
      frames := bytes :: s.frames
      seq := .idle
      todo := []
      resetPin := false
      inited := bootedFor s.inited (.frame bytes) }

end Sys2Proof.Machine
end

