-- ==== Sys2Proof/Machine/Converter.lean ====
section
/-! DEFINITION. Annex: the unit converter of 47_unit_converter_annex.md. It is outside the block (00_scope.md R5 (e)); no rule of the block depends on it. Exact rationals, and for the dew point a relation over the reals (R200; notes/assumptions/20.md). -/

namespace Sys2Proof.Machine

/-- 47_unit_converter_annex.md R201: degrees Celsius of a raw value. The argument is a number, so that R205's 65536 can be
written; the block returns 16-bit values. -/
def temperatureC (raw : Nat) : Rat := raw * 17572 / 6553600 - 4685 / 100

/-- 47_unit_converter_annex.md R202: percent relative humidity of a raw value, without a clamp. -/
def humidityRH (raw : Nat) : Rat := raw * 125 / 65536 - 6

/-- 47_unit_converter_annex.md R204: heater-compensated humidity. -/
def compensatedRH (rh t : Rat) : Rat := rh - (25 - t) * 15 / 100

/-- 47_unit_converter_annex.md R203: `partial_pressure = 10^(A − B/(T + C))`; no value where T = −C. -/
def IsPartialPressure (t p : ℝ) : Prop :=
  t + 23566 / 100 ≠ 0 ∧ p = (10 : ℝ) ^ ((81332 / 10000 : ℝ) - (176239 / 100) / (t + 23566 / 100))

/-- 47_unit_converter_annex.md R203: `dew_point = −B / (log10(RH * partial_pressure / 100) − A) − C`; no value where the
logarithm has none or equals A. -/
def IsDewPoint (t rh d : ℝ) : Prop :=
  ∃ p, IsPartialPressure t p ∧ 0 < rh * p ∧ Real.logb 10 (rh * p / 100) - 81332 / 10000 ≠ 0 ∧
    d = -(176239 / 100) / (Real.logb 10 (rh * p / 100) - 81332 / 10000) - 23566 / 100

end Sys2Proof.Machine
end

