-- ==== Sys2Proof/Machine/Phases.lean ====
section
/-! DEFINITION. The same machine one phase transition at a time (00_scope.md R8, 10_state.md R30): a request is accepted into its first phase, then each `phaseStep` leaves one phase. Step.lean's `step` takes several of these at once (10_state.md R31, notes/assumptions/1.md). -/

namespace Sys2Proof.Machine

/-- Where each instruction starts. -/
def startOf (i : Instr) (s : State) : Outcome :=
  match i with
  | .init => startInit s
  | .reset => startReset s
  | .setMode m => startSetMode m s
  | .setResolution l => startSetResolution l s
  | .readTemperature => startReadTemperature s
  | .readHumidity => startReadHumidity s
  | .readRegister => startReadRegister s
  | .writeRegister v => startWriteRegister v s
  | .readSerial => startReadSerial s
  | .crcCheck value crc => startCrcCheck value crc s
  | .writeCommand c => startWriteCommand c s
  | .writeCommandNoStop c => startWriteCommandNoStop c s
  | .busReset => startBusReset s
  | .busReadTempHold => startBusReadTempHold s
  | .busReadTempPoll => startBusReadTempPoll s
  | .busReadHumidityHold => startBusReadHumidityHold s
  | .busReadHumidityPoll => startBusReadHumidityPoll s
  | .busReadSerialFirst8 => startBusReadSerialFirst8 s
  | .busReadSerialLast6 => startBusReadSerialLast6 s
  | .busWriteUserRegister d => startBusWriteUserRegister d s
  | .busReadUserRegister => startBusReadUserRegister s

/-- One phase transition, or a host move (00_scope.md R8, 70_reset_and_hazards.md R257). -/
def phaseStep (s : State) : Outcome :=
  if s.resetPin then .next s.hardwareReset
  else
    match s.seq with
    | .idle =>
      match s.fetch with
      | none => .next s
      | some (p, t) =>
        match decode p with
        | .ok i => startOf i t
        | .error e => .refused (.malformed e)
    | .done => .next s.takeResponse
    | .wCall => s.advance
    | .rCall => s.advance
    | .dCall => s.advance
    | .iCall => s.advance
    | .crcRun => s.advance
    | .localStep => s.advance

/-- `n` phase transitions, stopping at a refusal or a fault. -/
def phaseSteps : Nat → State → Outcome
  | 0, s => .next s
  | n + 1, s =>
    match phaseStep s with
    | .next t => phaseSteps n t
    | .fault f => .fault f
    | .refused r => .refused r

end Sys2Proof.Machine
end

