-- ==== Sys2Proof/Safety.lean ====
section
/-! DEFINITION. The terms claims use: the invariant of the machine, which calls the block may ever make, what outcomes a request may end with, when the block waits, where a request stands on its path, the machine that only the host drives, and the part of the state that is not transient. -/

namespace Sys2Proof.Machine

/-! ### The invariant -/

/-- The nine values the block passes to the delay primitive (20_memory.md R57). -/
def delayValues : List (BitVec 32) := [3, 5, 7, 8, 13, 15, 16, 25, 50]

/-- A write with stop is one byte, or 0xE6 and a data byte (30_encoding.md R85). -/
def legalStopWrite (bytes : List Byte) : Prop := bytes.length = 1 ∨ ∃ d, bytes = [0xE6, d]

/-- A write without stop is one byte, or one of the two 16-bit opcodes (30_encoding.md R85, R87). -/
def legalNoStopWrite (bytes : List Byte) : Prop :=
  bytes.length = 1 ∨ bytes = [0xFA, 0x0F] ∨ bytes = [0xFC, 0xC9]

/-- The calls the block may make: address 0x40, the write frames of 30_encoding.md R85, the read lengths of R86, the delays
of 20_memory.md R57. -/
def Call.Legal : Call → Prop
  | .init => True
  | .writeWait address bytes => address = 0x40 ∧ legalStopWrite bytes
  | .writeWaitNoStop address bytes => address = 0x40 ∧ legalNoStopWrite bytes
  | .readWait address length => address = 0x40 ∧ length ∈ [1, 3, 6, 8]
  | .delay ms => ms ∈ delayValues

/-- A step that makes only legal calls. -/
def Micro.Legal : Micro → Prop
  | .write true bytes => legalStopWrite bytes
  | .write false bytes => legalNoStopWrite bytes
  | .read len _ => len ∈ [1, 3, 6, 8]
  | _ => True

/-- A step that moves bytes on the bus or waits for the sensor. -/
def Micro.usesBus (m : Micro) : Bool := m.phase == .wCall || m.phase == .rCall || m.phase == .dCall

/-- The two session times come from one row of the table (10_state.md R22). -/
def Session.FromTable (x : Session) : Prop :=
  ∃ l, x.temperatureConversionTimeUs = timeT l ∧ x.humidityConversionTimeUs = timeH l

/-- A request is in progress: the block is neither idle nor holding a response (10_state.md R30). -/
def State.busy (s : State) : Bool := s.seq != .idle && s.seq != .done

/-- Phase and position agree (10_state.md R30, R31): outside a request nothing is left to do, and a busy block is in the phase of
the step it does. -/
def State.PositionFits (s : State) : Prop :=
  if s.busy then ∃ m rest, s.todo = m :: rest ∧ s.seq = m.phase else s.todo = []

/-- What every step of the machine keeps. -/
structure State.Inv (s : State) : Prop where
  session : s.session.FromTable
  position : s.PositionFits
  noDataOnError : s.rsp.status ≠ .ok → s.rsp.data = none
  calls : ∀ c ∈ s.calls, c.Legal
  steps : ∀ m ∈ s.todo, m.Legal
  booted : ∀ m ∈ s.todo, m.usesBus = true → s.inited = true

/-! ### Waiting -/

/-- The block waits for an answer that has not come (10_state.md R30, 44_acquisition_engine.md R166). -/
def State.waits (s : State) : Bool :=
  match s.seq with
  | .wCall => s.replies.isEmpty
  | .rCall => s.replies.isEmpty
  | .dCall => s.delayReturns == 0
  | .iCall => s.initReturns == 0
  | .idle => false
  | .crcRun => false
  | .localStep => false
  | .done => false

/-! ### Outcomes -/

/-- 60_exceptions.md R211, the twelve requests: which outcomes each may end with. What a bus row run by itself
ends with is the model's choice (notes/assumptions/5.md): it makes no check. -/
def mayEnd : Instr → Status → Bool
  | .init, st => st == .ok
  | .setMode _, st => st == .ok
  | .crcCheck _ _, st => st == .ok || st == .crcError
  | .readTemperature, _ => true
  | .readHumidity, _ => true
  | .readSerial, _ => true
  | .reset, st => st != .crcError
  | .setResolution _, st => st != .crcError
  | .readRegister, st => st != .crcError
  | .writeRegister _, st => st != .crcError
  | .writeCommand _, st => st != .crcError
  | .writeCommandNoStop _, st => st != .crcError
  | .busReset, st => st != .crcError
  | .busReadTempHold, st => st != .crcError
  | .busReadTempPoll, st => st != .crcError
  | .busReadHumidityHold, st => st != .crcError
  | .busReadHumidityPoll, st => st != .crcError
  | .busReadSerialFirst8, st => st != .crcError
  | .busReadSerialLast6, st => st != .crcError
  | .busWriteUserRegister _, st => st != .crcError
  | .busReadUserRegister, st => st != .crcError

/-- 70_reset_and_hazards.md R242: what needs INIT first. The bus rows move bytes as well (notes/assumptions/5.md). -/
def needsInit : Instr → Bool
  | .init => false
  | .setMode _ => false
  | .crcCheck _ _ => false
  | .reset => true
  | .setResolution _ => true
  | .readTemperature => true
  | .readHumidity => true
  | .readRegister => true
  | .writeRegister _ => true
  | .readSerial => true
  | .writeCommand _ => true
  | .writeCommandNoStop _ => true
  | .busReset => true
  | .busReadTempHold => true
  | .busReadTempPoll => true
  | .busReadHumidityHold => true
  | .busReadHumidityPoll => true
  | .busReadSerialFirst8 => true
  | .busReadSerialLast6 => true
  | .busWriteUserRegister _ => true
  | .busReadUserRegister => true

/-- The measurement request of a quantity. -/
def measurement : Quantity → Instr
  | .temperature => .readTemperature
  | .humidity => .readHumidity

/-! ### Where a request stands on its path -/

/-- The path and the answer of each instruction; only the two measurements look at the state, at the mode. -/
def pathOf (mode : AcqMode) : Instr → List Micro × Answer
  | .init => ([.defaults, .init], .noData)
  | .reset => ([writeCommand Opcode.reset, .times .L0, .delay .settle], .noData)
  | .setMode m => ([.mode m], .noData)
  | .setResolution l => (setResolutionSteps l, .noData)
  | .readTemperature => (acquireSteps .temperature mode, .rawValue)
  | .readHumidity => (acquireSteps .humidity mode, .rawValue)
  | .readRegister => (readRegisterSteps, .registerByte)
  | .writeRegister _ => (writeRegisterSteps, .noData)
  | .readSerial => (serialFirstCycle ++ serialSecondCycle ++ serialChecks, .serialNumber)
  | .crcCheck value crc => ([.check (.operands value crc)], .noData)
  | .writeCommand c => ([writeCommand c], .noData)
  | .writeCommandNoStop c => ([writeCommandNoStop c], .noData)
  | .busReset => ([writeCommand Opcode.reset, .delay .settle], .noData)
  | .busReadTempHold => (acquireCycle .temperature .hold, .noData)
  | .busReadTempPoll => (acquireCycle .temperature .poll, .noData)
  | .busReadHumidityHold => (acquireCycle .humidity .hold, .noData)
  | .busReadHumidityPoll => (acquireCycle .humidity .poll, .noData)
  | .busReadSerialFirst8 => (serialFirstCycle, .noData)
  | .busReadSerialLast6 => (serialSecondCycle, .noData)
  | .busWriteUserRegister d => ([.write true [Opcode.writeUserRegister, d]], .noData)
  | .busReadUserRegister => (readRegisterSteps, .noData)

/-- The twelve host requests of 30_encoding.md R81; the other nine rows are bus opcodes (R87). -/
def isRequest : Instr → Bool
  | .init => true
  | .reset => true
  | .setMode _ => true
  | .setResolution _ => true
  | .readTemperature => true
  | .readHumidity => true
  | .readRegister => true
  | .writeRegister _ => true
  | .readSerial => true
  | .crcCheck _ _ => true
  | .writeCommand _ => true
  | .writeCommandNoStop _ => true
  | .busReset => false
  | .busReadTempHold => false
  | .busReadTempPoll => false
  | .busReadHumidityHold => false
  | .busReadHumidityPoll => false
  | .busReadSerialFirst8 => false
  | .busReadSerialLast6 => false
  | .busWriteUserRegister _ => false
  | .busReadUserRegister => false

/-- The block is somewhere on the path of instruction `i` (10_state.md R31). -/
def State.Serves (s : State) (i : Instr) : Prop :=
  ∃ mode, s.todo <:+ (pathOf mode i).1 ∧ s.answer = (pathOf mode i).2

/-- The machine of the spec, in which only the host issues anything (70_reset_and_hazards.md R257): no frame waits or is being run, a
busy block is on the path of a request, and once the register is read for a write, the mirror has the reserved bits of the byte
read (30_encoding.md R98). -/
structure State.HostDriven (s : State) : Prop where
  frames : s.frames = []
  position : s.PositionFits
  request : s.busy = true → ∃ i, isRequest i = true ∧ s.Serves i
  reserved : Micro.writeMirror ∈ s.todo → Micro.readMirror ∉ s.todo → s.regmirror &&& 0x38 = s.rx 0 &&& 0x38

/-! ### What is not transient -/

/-- The state with everything erased that no other agent sees and no later request may rest on: what the spec leaves unspecified between
requests (10_state.md R24 to R26, R29), the operand V, the free-value counter, and outside DONE the last response (R28). -/
def State.erased (s : State) : State :=
  { s with
    rxbuf := Vector.replicate 14 0, regmirror := 0, crc := ⟨0, 0, 0, 0⟩, req := ⟨0, 0⟩, vArg := 0, free := 0
    rsp := if s.seq = .done then s.rsp else ⟨.ok, none⟩ }

/-- What an instruction that starts may rest on: no position or answer kind of the request before it either (10_state.md R31). -/
def State.erasedAtStart (s : State) : State := { s.erased with todo := [], answer := .noData }

/-- An outcome seen through `State.erased`. -/
def erasedOutcome : Outcome → Outcome
  | .next s => .next s.erased
  | .fault f => .fault f
  | .refused r => .refused r

end Sys2Proof.Machine
end

