-- ==== Sys2Proof/Certificates/Slice0/Obligations.lean ====
section
/-! DEFINITION. The statements for the provers. "Entry n" is notes/assumptions/n.md. -/

open Sys2Proof Sys2Proof.Machine

/-! ### Encoding -/

/-- 30_encoding.md R80, R81, R87: no bit of an operand is lost between the encoder and the decoder. -/
def Obligations.DecodeOfEncodeIsTheInstruction : Prop :=
  ∀ i : Instr, i.wf = true → decode (encode i) = .ok i

/-- 30_encoding.md R80 to R82, R95: every packet the decoder accepts is the encoding of what it decodes to, so no two packets mean
the same instruction and no unused bit is ignored. -/
def Obligations.AcceptedPacketIsTheEncoding : Prop :=
  ∀ (p : Packet) (i : Instr), decode p = .ok i → encode i = p

/-- 30_encoding.md R82, R95: the decoder accepts exactly the packets that a mask and pattern of the opcode table cover. -/
def Obligations.DecoderAcceptsExactlyTheTable : Prop :=
  ∀ p : Packet, (∃ i, decode p = .ok i) ↔ p.wf = true

/-- 30_encoding.md R81, R87 and the examples of the request rules: words written out by hand. -/
def Obligations.WrittenOutWordsDecode : Prop :=
  decode (.request 0x00000000) = .ok .init ∧
  decode (.request 0x10000000) = .ok .reset ∧
  decode (.request 0x20000001) = .ok (.setMode .poll) ∧
  decode (.request 0x30000003) = .ok (.setResolution .L3) ∧
  decode (.request 0x50000000) = .ok .readHumidity ∧
  decode (.request 0x70000004) = .ok (.writeRegister 0x04) ∧
  decode (.request 0x80000000) = .ok .readSerial ∧
  decode (.request 0x90683A7C) = .ok (.crcCheck 0x683A 0x7C) ∧
  decode (.request 0xB00000E3) = .ok (.writeCommandNoStop 0xE3) ∧
  decode (.frame [0xFC, 0xC9]) = .ok .busReadSerialLast6 ∧
  decode (.frame [0xE6, 0xBB]) = .ok (.busWriteUserRegister 0xBB)

/-! ### The step -/

/-- 30_encoding.md R80: an idle block takes the next request word off the host's port, latches its fields, and runs the instruction; and
a bus frame that waits to be run by itself (the model's own, entry 4) is taken before it and runs. -/
def Obligations.StepRunsTheDecodedInstruction : Prop :=
  (∀ (s : State) (w : RequestWord) (rest : List RequestWord) (i : Instr),
    s.resetPin = false → s.seq = .idle → s.frames = [] → s.port = w :: rest → decode (.request w) = .ok i → i.wf = true →
    step s = exec i { s with port := rest, req := ⟨w.extractLsb' 28 4, w.extractLsb' 0 24⟩ }) ∧
  (∀ (s : State) (bytes : List Byte) (rest : List (List Byte)) (i : Instr),
    s.resetPin = false → s.seq = .idle → s.frames = bytes :: rest → decode (.frame bytes) = .ok i → i.wf = true →
    step s = exec i { s with frames := rest })

/-- 30_encoding.md R95: a malformed request word is refused by name, whatever else the state holds; so is a frame that is none of R87's
(the model's own, entry 4). -/
def Obligations.MalformedPacketIsRefused : Prop :=
  (∀ (s : State) (w : RequestWord) (rest : List RequestWord),
    s.resetPin = false → s.seq = .idle → s.frames = [] → s.port = w :: rest → (Packet.request w).wf = false →
    ∃ e, step s = .refused (.malformed e)) ∧
  (∀ (s : State) (bytes : List Byte) (rest : List (List Byte)),
    s.resetPin = false → s.seq = .idle → s.frames = bytes :: rest → (Packet.frame bytes).wf = false →
    ∃ e, step s = .refused (.malformed e))

/-- 70_reset_and_hazards.md R256: with nothing to take an idle block waits, unchanged. -/
def Obligations.IdleBlockWaits : Prop :=
  ∀ s : State, s.resetPin = false → s.seq = .idle → s.port = [] → s.frames = [] → step s = .next s

/-- 20_memory.md R65, 30_encoding.md R80: a block that is not idle takes nothing off the port and no frame; and the request latch is
constant until the response has been given (10_state.md R29); that the giving leaves it too is the model's choice (entry 26). -/
def Obligations.BusyBlockTakesNoRequest : Prop :=
  ∀ s t : State, s.resetPin = false → s.seq ≠ .idle → step s = .next t →
    t.port = s.port ∧ t.frames = s.frames ∧ t.req = s.req

/-- 60_exceptions.md R214, 70_reset_and_hazards.md R256, R257 (b): taking the response gives it to the host once, makes the block
idle and leaves the session, the inputs and the calls alone. That the latch stays too is the model's choice (entry 26), and so is that the
host takes it at the next step (entry 13). -/
def Obligations.DoneBlockGivesItsResponseOnce : Prop :=
  ∀ s : State, s.resetPin = false → s.seq = .done →
    ∃ (buf : Vector Byte 14) (m v : Byte) (n : Nat),
      step s = .next { s with
        responses := s.responses ++ [s.rsp], seq := .idle, todo := [], rxbuf := buf, regmirror := m, vArg := v, free := n }

/-- 60_exceptions.md R219, 44_acquisition_engine.md R166: while a call is not answered the block stays as it is, for any number of
steps, and a hardware reset ends the hang. -/
def Obligations.UnansweredCallHangsUntilReset : Prop :=
  ∀ s : State, s.PositionFits → s.resetPin = false → s.waits = true →
    (∀ n, core.run n s = .next s) ∧ ∃ t, step { s with resetPin := true } = .next t ∧ t.seq = .idle ∧ t.responses = s.responses

/-- 70_reset_and_hazards.md R240: hardware reset in any state; RESET_MODE is the spec's choice D9 (entry 7). -/
def Obligations.HardwareResetInAnyState : Prop :=
  ∀ s : State, s.resetPin = true →
    ∃ (buf : Vector Byte 14) (m v : Byte) (regs : CrcRegs) (rq : RequestLatch) (st : Status) (n : Nat),
      step s = .next { s with
        session := ⟨.poll, 50000, 16000⟩, seq := .idle, inited := false, todo := [], answer := .noData, resetPin := false,
        rxbuf := buf, regmirror := m, vArg := v, crc := regs, req := rq, rsp := ⟨st, none⟩, free := n }

/-- 10_state.md R36: the values the spec gives for reset; the mode is the spec's choice D9 (entry 7). -/
def Obligations.ResetStateHasTheGivenValues : Prop :=
  State.reset.session = ⟨.poll, 50000, 16000⟩ ∧ State.reset.seq = .idle ∧ State.reset.inited = false ∧
  State.reset.todo = [] ∧ State.reset.calls = [] ∧ State.reset.responses = [] ∧ step State.reset = .next State.reset

/-! ### The CRC-8 validator -/

/-- 40_crc8_validator.md R112: before iteration `i` of a check the marker, the mask and the polynomial are the given constants shifted
right by `i`, and the iteration is the given one. The initial mask 0xFF8000 is the spec's choice from general knowledge and the initial
marker its derivation (R111, 92_eei_decisions.md D7; entry 18). -/
def Obligations.CrcIterationIsTheGivenOne : Prop :=
  ∀ (value : Half) (i : Nat), i < 16 →
    let r := CrcRegs.iterateN i (CrcRegs.load value)
    let next := CrcRegs.iterateN (i + 1) (CrcRegs.load value)
    (r.msb = (0x800000 : CrcWord) >>> i ∧ r.mask = (0xFF8000 : CrcWord) >>> i ∧ r.poly = (0x988000 : CrcWord) >>> i) ∧
    (r.result &&& r.msb ≠ 0 → next.result = ((r.result ^^^ r.poly) &&& r.mask) ||| (r.result &&& ~~~r.mask)) ∧
    (r.result &&& r.msb = 0 → next.result = r.result) ∧
    next.msb = r.msb >>> 1 ∧ next.mask = r.mask >>> 1 ∧ next.poly = r.poly >>> 1

/-- 40_crc8_validator.md R113, R116: after `i` iterations of the masked algorithm the working register is that of the closed form
without the mask, and after sixteen it is the checksum, zero-extended. -/
def Obligations.CrcRegisterFollowsTheClosedForm : Prop :=
  (∀ (value : Half) (i : Nat), i < 16 →
    (CrcRegs.iterateN (i + 1) (CrcRegs.load value)).result =
      if (CrcRegs.iterateN i (CrcRegs.load value)).result.getLsbD (23 - i) then
        (CrcRegs.iterateN i (CrcRegs.load value)).result ^^^ ((0x988000 : CrcWord) >>> i)
      else (CrcRegs.iterateN i (CrcRegs.load value)).result) ∧
  (∀ value : Half, (CrcRegs.iterateN 16 (CrcRegs.load value)).result = (crc8 value).zeroExtend 24)

/-- 40_crc8_validator.md R116: the bit-serial algorithm computes the byte-wise CRC with polynomial 0x31. -/
def Obligations.BitSerialCrcIsBytewiseCrc : Prop :=
  ∀ value : Half, crc8 value = crc8Bytewise value

/-- 40_crc8_validator.md R117 (a), (b), (e): zero, linearity, and detection of every single flipped data bit. -/
def Obligations.CrcIsLinearAndSeesEveryBit : Prop :=
  crc8 0 = 0 ∧ (∀ a b : Half, crc8 (a ^^^ b) = crc8 a ^^^ crc8 b) ∧
  ∀ (a : Half) (k : Nat), k < 16 → crc8 (a ^^^ (1#16 <<< k)) ≠ crc8 a

/-- 40_crc8_validator.md R114, R120: CRC_CHECK ends OK exactly when the checksum is right, otherwise CRC_ERROR, makes no call and,
but for the datapath, changes nothing else. -/
def Obligations.CrcCheckAnswersByComparison : Prop :=
  ∀ (s : State) (value : Half) (crc : Byte),
    ∃ (regs : CrcRegs) (n : Nat),
      exec (.crcCheck value crc) s = .next { s with
        seq := .done, todo := [], answer := .noData, crc := regs, free := n,
        rsp := ⟨if crc8 value = crc then .ok else .crcError, none⟩ }

/-- 40_crc8_validator.md R118: a value passes with its own checksum, and with no checksum that differs from it in one bit. -/
def Obligations.OwnChecksumPassesAndFlippedFails : Prop :=
  ∀ (s : State) (value : Half),
    (∃ t, exec (.crcCheck value (crc8 value)) s = .next t ∧ t.rsp.status = .ok) ∧
    ∀ k, k < 8 → ∃ t, exec (.crcCheck value (crc8 value ^^^ (1#8 <<< k))) s = .next t ∧ t.rsp.status = .crcError

/-! ### The bus command layer -/

/-- 41_bus_command_layer.md R130, R131, R134: WRITE_COMMAND makes one write with stop and ends with the mapped status. -/
def Obligations.WriteCommandSendsOneByteWithStop : Prop :=
  ∀ (s : State) (c : Byte) (r : Reply) (rest : List Reply), s.inited = true → s.replies = r :: rest →
    exec (.writeCommand c) s = .next { s with
      seq := .done, todo := [], answer := .noData, replies := rest,
      calls := s.calls ++ [.writeWait 0x40 [c]],
      rsp := ⟨match r.status with
        | .ok => .ok
        | .bufferOverflow => .noAcknowledge
        | .timeout => .transferError
        | .other => .transferError, none⟩ }

/-- 41_bus_command_layer.md R132, R135: WRITE_COMMAND_NO_STOP is the same, without stop. -/
def Obligations.WriteCommandNoStopSendsOneByteHeld : Prop :=
  ∀ (s : State) (c : Byte) (r : Reply) (rest : List Reply), s.inited = true → s.replies = r :: rest →
    exec (.writeCommandNoStop c) s = .next { s with
      seq := .done, todo := [], answer := .noData, replies := rest,
      calls := s.calls ++ [.writeWaitNoStop 0x40 [c]],
      rsp := ⟨match r.status with
        | .ok => .ok
        | .bufferOverflow => .noAcknowledge
        | .timeout => .transferError
        | .other => .transferError, none⟩ }

/-- 60_exceptions.md R216: a call that fails is not made again, and nothing of the request is left to do; and a request that has failed,
for whatever reason, is not attempted again: the step after it makes no call and takes nothing from the port. -/
def Obligations.FailedCallIsNotRetried : Prop :=
  (∀ (s : State) (r : Reply) (rest : List Reply),
    s.PositionFits → s.resetPin = false → s.seq = .wCall ∨ s.seq = .rCall → s.replies = r :: rest → r.status ≠ .ok →
    ∃ t, step s = .next t ∧ t.rsp.status ≠ .ok ∧ t.todo = [] ∧ t.calls = s.calls ∧ t.replies = rest) ∧
  (∀ (i : Instr) (s t : State),
    s.resetPin = false → exec i s = .next t → t.seq = .done → t.rsp.status ≠ .ok →
    t.todo = [] ∧ ∃ u, step t = .next u ∧ u.todo = [] ∧ u.calls = t.calls ∧ u.port = t.port ∧ u.replies = t.replies)

/-! ### The register manager -/

/-- 42_register_manager.md R140, R141: READ_REGISTER answers the byte the sensor sends, whole. -/
def Obligations.ReadRegisterReturnsTheByteWhole : Prop :=
  ∀ (s : State) (x : List Byte) (b : Byte) (rest : List Reply), s.inited = true →
    s.replies = ⟨.ok, x⟩ :: ⟨.ok, [b]⟩ :: rest →
    exec .readRegister s = .next { s with
      seq := .done, todo := [], answer := .registerByte, replies := rest,
      calls := s.calls ++ [.writeWait 0x40 [0xE7], .readWait 0x40 1],
      rxbuf := s.rxbuf.set 0 b, regmirror := b,
      rsp := ⟨.ok, some (b.zeroExtend 64)⟩ }

/-- 42_register_manager.md R140, R141: a READ_REGISTER whose command or whose read fails; after a failed command no read is made, and
the byte a failed read was to fill is unspecified (10_state.md R24). -/
def Obligations.ReadRegisterStopsAtTheFirstFailure : Prop :=
  ∀ (s : State) (bad : TransportStatus) (x y : List Byte) (rest : List Reply), s.inited = true → bad ≠ .ok →
    (s.replies = ⟨bad, x⟩ :: rest →
      exec .readRegister s = .next { s with
        seq := .done, todo := [], answer := .registerByte, replies := rest,
        calls := s.calls ++ [.writeWait 0x40 [0xE7]],
        rsp := ⟨if bad = .bufferOverflow then .noAcknowledge else .transferError, none⟩ }) ∧
    (s.replies = ⟨.ok, x⟩ :: ⟨bad, y⟩ :: rest →
      ∃ (b : Byte) (n : Nat), exec .readRegister s = .next { s with
        seq := .done, todo := [], answer := .registerByte, replies := rest, rxbuf := s.rxbuf.set 0 b, free := n,
        calls := s.calls ++ [.writeWait 0x40 [0xE7], .readWait 0x40 1],
        rsp := ⟨if bad = .bufferOverflow then .noAcknowledge else .transferError, none⟩ })

/-- 42_register_manager.md R142 to R144: WRITE_REGISTER reads, merges with mask 0x87 and writes back in one two-byte write with stop;
the session stays (the bit positions are the spec's choice D11, the write's shape D13: entry 18). -/
def Obligations.WriteRegisterMergesAndWritesBack : Prop :=
  ∀ (s : State) (v : Byte) (x : List Byte) (b : Byte) (r : Reply) (rest : List Reply), s.inited = true →
    s.replies = ⟨.ok, x⟩ :: ⟨.ok, [b]⟩ :: r :: rest →
    exec (.writeRegister v) s = .next { s with
      seq := .done, todo := [], answer := .noData, replies := rest, vArg := v,
      calls := s.calls ++ [.writeWait 0x40 [0xE7], .readWait 0x40 1, .writeWait 0x40 [0xE6, (b &&& 0x78) ||| (v &&& 0x87)]],
      rxbuf := s.rxbuf.set 0 b, regmirror := (b &&& 0x78) ||| (v &&& 0x87),
      rsp := ⟨mapStatus r.status, none⟩ }

/-- 42_register_manager.md R145, R146, 30_encoding.md R98: for every register contents and every operand, the byte WRITE_REGISTER sends
has the resolution, heater and OTP bits of the operand and the reserved bits and end-of-battery bit of the register. -/
def Obligations.RegisterMergeKeepsReservedBits : Prop :=
  ∀ (s : State) (v : Byte) (x : List Byte) (b : Byte) (r : Reply) (rest : List Reply), s.inited = true →
    s.replies = ⟨.ok, x⟩ :: ⟨.ok, [b]⟩ :: r :: rest →
    ∃ t m, exec (.writeRegister v) s = .next t ∧ t.calls.getLast? = some (.writeWait 0x40 [0xE6, m]) ∧
      m &&& 0x87 = v &&& 0x87 ∧ m &&& 0x38 = b &&& 0x38 ∧ m &&& 0x40 = b &&& 0x40

/-- 42_register_manager.md R142, R144: when the command or the read of WRITE_REGISTER fails, nothing is written to the sensor. -/
def Obligations.WriteRegisterWritesNothingAfterAFailedRead : Prop :=
  ∀ (s : State) (v : Byte) (bad : TransportStatus) (x y : List Byte) (rest : List Reply), s.inited = true → bad ≠ .ok →
    (s.replies = ⟨bad, x⟩ :: rest →
      exec (.writeRegister v) s = .next { s with
        seq := .done, todo := [], answer := .noData, replies := rest, vArg := v,
        calls := s.calls ++ [.writeWait 0x40 [0xE7]],
        rsp := ⟨if bad = .bufferOverflow then .noAcknowledge else .transferError, none⟩ }) ∧
    (s.replies = ⟨.ok, x⟩ :: ⟨bad, y⟩ :: rest →
      ∃ (b : Byte) (n : Nat), exec (.writeRegister v) s = .next { s with
        seq := .done, todo := [], answer := .noData, replies := rest, vArg := v, rxbuf := s.rxbuf.set 0 b, free := n,
        calls := s.calls ++ [.writeWait 0x40 [0xE7], .readWait 0x40 1],
        rsp := ⟨if bad = .bufferOverflow then .noAcknowledge else .transferError, none⟩ })

/-! ### Resolution selection -/

/-- 43_timing_and_resolution.md R150: the table, each pair temperature first, its first row the default, and humidity longer only in
its last. -/
def Obligations.TimingTableIsTheGivenOne : Prop :=
  (timeT .L0, timeH .L0) = (50000, 16000) ∧ (timeT .L1, timeH .L1) = (25000, 5000) ∧
  (timeT .L2, timeH .L2) = (13000, 3000) ∧ (timeT .L3, timeH .L3) = (7000, 8000) ∧
  (∀ l, (timeT l).toNat < (timeH l).toNat ↔ l = .L3) ∧
  State.reset.session.temperatureConversionTimeUs = timeT .L0 ∧ State.reset.session.humidityConversionTimeUs = timeH .L0

/-- 43_timing_and_resolution.md R152, R153: the five calls of SET_RESOLUTION and the byte it writes, heater and OTP bits from the first
read, the other kept bits from the second (the composition is the spec's choice D14, the codes D10: entry 18). -/
def Obligations.SetResolutionMakesFiveCalls : Prop :=
  ∀ (s : State) (l : Level) (x y : List Byte) (r1 r2 : Byte) (r : Reply) (rest : List Reply), s.inited = true →
    s.replies = ⟨.ok, x⟩ :: ⟨.ok, [r1]⟩ :: ⟨.ok, y⟩ :: ⟨.ok, [r2]⟩ :: r :: rest →
    let code : Byte := match l with
      | .L0 => 0x00
      | .L1 => 0x80
      | .L2 => 0x01
      | .L3 => 0x81
    let m : Byte := (r2 &&& 0x78) ||| (r1 &&& 0x06) ||| code
    exec (.setResolution l) s = .next { s with
      session := { s.session with temperatureConversionTimeUs := timeT l, humidityConversionTimeUs := timeH l },
      seq := .done, todo := [], answer := .noData, replies := rest,
      calls := s.calls ++ [.writeWait 0x40 [0xE7], .readWait 0x40 1, .writeWait 0x40 [0xE7], .readWait 0x40 1,
        .writeWait 0x40 [0xE6, m]],
      rxbuf := s.rxbuf.set 0 r2, regmirror := m, vArg := (r1 &&& 0x7E) ||| code,
      rsp := ⟨mapStatus r.status, none⟩ }

/-- 43_timing_and_resolution.md R152, R154: a failing call of SET_RESOLUTION, the first to the fourth, ends it with the mapped status after just
the calls up to it, and the session has the new times (the composition is the spec's choice D14: entry 18). The fifth call's failure is in
SetResolutionMakesFiveCalls. -/
def Obligations.SetResolutionEndsAtTheFirstFailure : Prop :=
  ∀ (s : State) (l : Level) (bad : TransportStatus) (x y z : List Byte) (r1 : Byte) (rest : List Reply), s.inited = true →
    bad ≠ .ok →
    ∀ (before : List Reply) (k : Nat),
      (before, k) = ([], 1) ∨ (before, k) = ([⟨.ok, x⟩], 2) ∨ (before, k) = ([⟨.ok, x⟩, ⟨.ok, [r1]⟩], 3) ∨
        (before, k) = ([⟨.ok, x⟩, ⟨.ok, [r1]⟩, ⟨.ok, y⟩], 4) →
      s.replies = before ++ ⟨bad, z⟩ :: rest →
      ∃ t, exec (.setResolution l) s = .next t ∧ t.seq = .done ∧ t.todo = [] ∧ t.replies = rest ∧
        t.session = { s.session with temperatureConversionTimeUs := timeT l, humidityConversionTimeUs := timeH l } ∧
        t.calls = s.calls ++ List.take k [.writeWait 0x40 [0xE7], .readWait 0x40 1, .writeWait 0x40 [0xE7], .readWait 0x40 1] ∧
        t.rsp = ⟨if bad = .bufferOverflow then .noAcknowledge else .transferError, none⟩

/-- 43_timing_and_resolution.md R154, R155: SET_RESOLUTION leaves the session with the pair of its level and the old mode on every
outcome, also when a call fails or is never answered (the order is the spec's choice D14: entry 18). -/
def Obligations.SetResolutionSetsTimesOnEveryOutcome : Prop :=
  ∀ (s t : State) (l : Level), exec (.setResolution l) s = .next t →
    t.session = { s.session with temperatureConversionTimeUs := timeT l, humidityConversionTimeUs := timeH l }

/-- 43_timing_and_resolution.md R151: the eight delays of the poll path, in milliseconds. -/
def Obligations.PollDelaysAreTheTableInMilliseconds : Prop :=
  ∀ (l : Level) (m : AcqMode),
    let x : Session := ⟨m, timeT l, timeH l⟩
    (x.delayMs .temperature, x.delayMs .humidity) =
      match l with
      | .L0 => (50, 16)
      | .L1 => (25, 5)
      | .L2 => (13, 3)
      | .L3 => (7, 8)

/-! ### Measurements -/

/-- 44_acquisition_engine.md R162, R165, R167: in HOLD the command goes out without stop, no delay call is made, three bytes are read, and
the answer is the whole 16-bit word if the checksum is right. -/
def Obligations.HoldMeasurementReadsWithoutDelay : Prop :=
  ∀ (s : State) (q : Quantity) (x : List Byte) (b0 b1 c : Byte) (rest : List Reply),
    s.inited = true → s.session.acquisitionMode = .hold →
    s.replies = ⟨.ok, x⟩ :: ⟨.ok, [b0, b1, c]⟩ :: rest →
    ∃ (regs : CrcRegs) (n : Nat), exec (measurement q) s = .next { s with
      seq := .done, todo := [], answer := .rawValue, replies := rest, crc := regs, free := n,
      calls := s.calls ++ [.writeWaitNoStop 0x40 [match q with
        | .temperature => 0xE3
        | .humidity => 0xE5], .readWait 0x40 3],
      rxbuf := ((s.rxbuf.set 0 b0).set 1 b1).set 2 c,
      rsp := if crc8 (b0 ++ b1) = c then ⟨.ok, some ((b0 ++ b1).zeroExtend 64)⟩ else ⟨.crcError, none⟩ }

/-- 44_acquisition_engine.md R163 to R165, R167: in POLL the command goes out with stop, exactly one delay call is made with the session's
cached time in milliseconds, truncated, then three bytes are read and checked. -/
def Obligations.PollMeasurementDelaysOnce : Prop :=
  ∀ (s : State) (q : Quantity) (x : List Byte) (b0 b1 c : Byte) (rest : List Reply) (d : Nat),
    s.inited = true → s.session.acquisitionMode = .poll → s.delayReturns = d + 1 →
    s.replies = ⟨.ok, x⟩ :: ⟨.ok, [b0, b1, c]⟩ :: rest →
    ∃ (regs : CrcRegs) (n : Nat), exec (measurement q) s = .next { s with
      seq := .done, todo := [], answer := .rawValue, replies := rest, delayReturns := d, crc := regs, free := n,
      calls := s.calls ++ (match q with
        | .temperature => [.writeWait 0x40 [0xF3],
            .delay (BitVec.ofNat 32 (s.session.temperatureConversionTimeUs.toNat / 1000)), .readWait 0x40 3]
        | .humidity => [.writeWait 0x40 [0xF5],
            .delay (BitVec.ofNat 32 (s.session.humidityConversionTimeUs.toNat / 1000)), .readWait 0x40 3]),
      rxbuf := ((s.rxbuf.set 0 b0).set 1 b1).set 2 c,
      rsp := if crc8 (b0 ++ b1) = c then ⟨.ok, some ((b0 ++ b1).zeroExtend 64)⟩ else ⟨.crcError, none⟩ }

/-- 44_acquisition_engine.md R170, 60_exceptions.md R215 (a), (b): a measurement whose command fails makes neither delay nor read; one whose
read fails, after the delay in POLL and at once in HOLD, is not checked, and its outcome is the mapped transport status whatever the
bytes. -/
def Obligations.MeasurementTransportFailureComesFirst : Prop :=
  ∀ (s : State) (q : Quantity) (bad : TransportStatus) (x y : List Byte) (rest : List Reply), s.inited = true → bad ≠ .ok →
    let failed : Response := ⟨if bad = .bufferOverflow then .noAcknowledge else .transferError, none⟩
    (s.replies = ⟨bad, x⟩ :: rest →
      exec (measurement q) s = .next { s with
        seq := .done, todo := [], answer := .rawValue, replies := rest, rsp := failed,
        calls := s.calls ++ (match s.session.acquisitionMode with
          | .hold => [.writeWaitNoStop 0x40 [acquireOpcode q .hold]]
          | .poll => [.writeWait 0x40 [acquireOpcode q .poll]]) }) ∧
    (s.session.acquisitionMode = .hold → s.replies = ⟨.ok, x⟩ :: ⟨bad, y⟩ :: rest →
      ∃ (b0 b1 b2 : Byte) (n : Nat), exec (measurement q) s = .next { s with
        seq := .done, todo := [], answer := .rawValue, replies := rest, free := n, rsp := failed,
        rxbuf := ((s.rxbuf.set 0 b0).set 1 b1).set 2 b2,
        calls := s.calls ++ [.writeWaitNoStop 0x40 [acquireOpcode q .hold], .readWait 0x40 3] }) ∧
    (∀ d, s.session.acquisitionMode = .poll → s.delayReturns = d + 1 → s.replies = ⟨.ok, x⟩ :: ⟨bad, y⟩ :: rest →
      ∃ (b0 b1 b2 : Byte) (n : Nat), exec (measurement q) s = .next { s with
        seq := .done, todo := [], answer := .rawValue, replies := rest, free := n, rsp := failed, delayReturns := d,
        rxbuf := ((s.rxbuf.set 0 b0).set 1 b1).set 2 b2,
        calls := s.calls ++
          [.writeWait 0x40 [acquireOpcode q .poll], .delay (s.session.delayMs q), .readWait 0x40 3] })

/-- 20_memory.md R59, R55: a read, the first or the second of an instruction, that answers T_OK with another number of bytes than asked is
refused by name, and nothing of the instruction counts (entry 25). -/
def Obligations.ReadOfWrongLengthIsRefused : Prop :=
  (∀ (s : State) (x y : List Byte) (rest : List Reply), s.inited = true → s.replies = ⟨.ok, x⟩ :: ⟨.ok, y⟩ :: rest →
    (y.length ≠ 1 →
      exec .readRegister s = .refused (.readLength 1 y.length) ∧
      exec .busReadUserRegister s = .refused (.readLength 1 y.length) ∧
      (∀ v, exec (.writeRegister v) s = .refused (.readLength 1 y.length)) ∧
      ∀ l, exec (.setResolution l) s = .refused (.readLength 1 y.length)) ∧
    (y.length ≠ 3 →
      exec .busReadTempHold s = .refused (.readLength 3 y.length) ∧
      exec .busReadHumidityHold s = .refused (.readLength 3 y.length) ∧
      (s.session.acquisitionMode = .hold → ∀ q, exec (measurement q) s = .refused (.readLength 3 y.length)) ∧
      (∀ d, s.delayReturns = d + 1 →
        exec .busReadTempPoll s = .refused (.readLength 3 y.length) ∧
        exec .busReadHumidityPoll s = .refused (.readLength 3 y.length) ∧
        (s.session.acquisitionMode = .poll → ∀ q, exec (measurement q) s = .refused (.readLength 3 y.length)))) ∧
    (y.length ≠ 8 →
      exec .readSerial s = .refused (.readLength 8 y.length) ∧
      exec .busReadSerialFirst8 s = .refused (.readLength 8 y.length)) ∧
    (y.length ≠ 6 → exec .busReadSerialLast6 s = .refused (.readLength 6 y.length))) ∧
  (∀ (s : State) (x y batch z : List Byte) (rest : List Reply), s.inited = true → batch.length = 8 →
    s.replies = ⟨.ok, x⟩ :: ⟨.ok, batch⟩ :: ⟨.ok, y⟩ :: ⟨.ok, z⟩ :: rest → z.length ≠ 6 →
    exec .readSerial s = .refused (.readLength 6 z.length)) ∧
  (∀ (s : State) (l : Level) (x y z : List Byte) (r1 : Byte) (rest : List Reply), s.inited = true →
    s.replies = ⟨.ok, x⟩ :: ⟨.ok, [r1]⟩ :: ⟨.ok, y⟩ :: ⟨.ok, z⟩ :: rest → z.length ≠ 1 →
    exec (.setResolution l) s = .refused (.readLength 1 z.length))

/-- 44_acquisition_engine.md R171: the phases a measurement walks from acceptance to DONE. -/
def Obligations.MeasurementPhasesAreTheGivenPath : Prop :=
  ∀ (s : State) (q : Quantity), s.inited = true →
    ∃ t, startOf (measurement q) s = .next t ∧ (t.todo.map Micro.phase).head? = some t.seq ∧
      t.todo.map Micro.phase = match s.session.acquisitionMode with
        | .hold => [.wCall, .rCall, .crcRun]
        | .poll => [.wCall, .dCall, .rCall, .crcRun]

/-! ### The serial number -/

/-- 45_serial_number.md R181 to R185: with four successful calls READ_SERIAL makes all six checks and answers the bytes 0, 2, 4, 6, 8, 9,
11, 12, big-endian, or CRC_ERROR (checking after all transfers is the spec's choice D18: entry 18). -/
def Obligations.ReadSerialAssemblesTheIdentifier : Prop :=
  ∀ (s : State) (x y : List Byte) (a0 a1 a2 a3 a4 a5 a6 a7 e0 e1 e2 e3 e4 e5 : Byte) (rest : List Reply), s.inited = true →
    s.replies = ⟨.ok, x⟩ :: ⟨.ok, [a0, a1, a2, a3, a4, a5, a6, a7]⟩ :: ⟨.ok, y⟩ :: ⟨.ok, [e0, e1, e2, e3, e4, e5]⟩ :: rest →
    ∃ (regs : CrcRegs) (n : Nat), exec .readSerial s = .next { s with
      seq := .done, todo := [], answer := .serialNumber, replies := rest, crc := regs, free := n,
      calls := s.calls ++ [.writeWaitNoStop 0x40 [0xFA, 0x0F], .readWait 0x40 8, .writeWaitNoStop 0x40 [0xFC, 0xC9],
        .readWait 0x40 6],
      rxbuf := #v[a0, a1, a2, a3, a4, a5, a6, a7, e0, e1, e2, e3, e4, e5],
      rsp := if crc8 (a0.zeroExtend 16) = a1 ∧ crc8 (a2.zeroExtend 16) = a3 ∧ crc8 (a4.zeroExtend 16) = a5 ∧
          crc8 (a6.zeroExtend 16) = a7 ∧ crc8 (e0 ++ e1) = e2 ∧ crc8 (e3 ++ e4) = e5 then
          ⟨.ok, some (a0 ++ a2 ++ a4 ++ a6 ++ e0 ++ e1 ++ e3 ++ e4)⟩
        else ⟨.crcError, none⟩ }

/-- 45_serial_number.md R185, 60_exceptions.md R215 (c): a failing call of READ_SERIAL ends it with the mapped status after just the calls
up to it, so also when the first batch has a wrong checksum. -/
def Obligations.ReadSerialTransportFailureOutranksChecks : Prop :=
  ∀ (s : State) (bad : TransportStatus) (x y z : List Byte) (batch : List Byte) (rest : List Reply), s.inited = true →
    bad ≠ .ok → batch.length = 8 →
    ∀ (before : List Reply) (k : Nat),
      (before, k) = ([], 1) ∨ (before, k) = ([⟨.ok, x⟩], 2) ∨ (before, k) = ([⟨.ok, x⟩, ⟨.ok, batch⟩], 3) ∨
        (before, k) = ([⟨.ok, x⟩, ⟨.ok, batch⟩, ⟨.ok, y⟩], 4) →
      s.replies = before ++ ⟨bad, z⟩ :: rest →
      ∃ t, exec .readSerial s = .next t ∧ t.seq = .done ∧ t.todo = [] ∧ t.replies = rest ∧ t.session = s.session ∧
        t.calls = s.calls ++ List.take k [.writeWaitNoStop 0x40 [0xFA, 0x0F], .readWait 0x40 8,
          .writeWaitNoStop 0x40 [0xFC, 0xC9], .readWait 0x40 6] ∧
        t.rsp = ⟨if bad = .bufferOverflow then .noAcknowledge else .transferError, none⟩

/-! ### System operations -/

/-- 46_system_ops.md R190: INIT in a block that has had none (its shape is the spec's choice D17, the mode D9: entries 7 and 18). -/
def Obligations.InitSetsTheSessionAndTheTransport : Prop :=
  ∀ (s : State) (n : Nat), s.inited = false → s.initReturns = n + 1 →
    exec .init s = .next { s with
      session := ⟨.poll, 50000, 16000⟩, inited := true, initReturns := n, calls := s.calls ++ [.init],
      seq := .done, todo := [], answer := .noData, rsp := ⟨.ok, none⟩ }

/-- 46_system_ops.md R191: RESET with a command that goes out restores the times before the delay of 15 ms and keeps the mode; with one that
fails it changes nothing and makes no delay (the spec's choice D15: entry 18). -/
def Obligations.ResetRestoresTheTimesUnlessItFails : Prop :=
  ∀ (s : State) (r : Reply) (rest : List Reply), s.inited = true → s.replies = r :: rest →
    (∀ d, r.status = .ok → s.delayReturns = d + 1 →
      exec .reset s = .next { s with
        session := { s.session with temperatureConversionTimeUs := 50000, humidityConversionTimeUs := 16000 },
        replies := rest, delayReturns := d, calls := s.calls ++ [.writeWait 0x40 [0xFE], .delay 15],
        seq := .done, todo := [], answer := .noData, rsp := ⟨.ok, none⟩ }) ∧
    (r.status ≠ .ok →
      exec .reset s = .next { s with
        replies := rest, calls := s.calls ++ [.writeWait 0x40 [0xFE]], seq := .done, todo := [], answer := .noData,
        rsp := ⟨if r.status = .bufferOverflow then .noAcknowledge else .transferError, none⟩ })

/-- 46_system_ops.md R192: SET_MODE writes the mode and nothing else of the session, makes no call and needs no INIT (the spec's choice
D16: entry 18). -/
def Obligations.SetModeWritesTheModeOnly : Prop :=
  ∀ (s : State) (m : AcqMode),
    exec (.setMode m) s = .next { s with
      session := { s.session with acquisitionMode := m }, seq := .done, todo := [], answer := .noData, rsp := ⟨.ok, none⟩ }

/-- 70_reset_and_hazards.md R242, 46_system_ops.md R190: a bus user before INIT and a second INIT are refused; nothing else is at the start
(the spec's choice D17: entry 15). needsInit holds of the nine bus rows as well: R87 gives a row no boot condition, and that it needs INIT is
the model's choice (entry 5). -/
def Obligations.BootOrderIsEnforced : Prop :=
  (∀ (s : State) (i : Instr), needsInit i = true → s.inited = false → exec i s = .refused .notInitialised) ∧
  (∀ s : State, s.inited = true → exec .init s = .refused .secondInit) ∧
  (∀ (s : State) (i : Instr), (i = .init → s.inited = false) → (needsInit i = true → s.inited = true) →
    ∃ t, startOf i s = .next t)

/-! ### The bus rows of the opcode table, each by itself (entries 4 and 5) -/

/-- 30_encoding.md R87, 44_acquisition_engine.md R162, R163: the four measurement opcodes, with what follows them. -/
def Obligations.MeasurementFramesFillTheBuffer : Prop :=
  ∀ (s : State) (x : List Byte) (b0 b1 c : Byte) (rest : List Reply), s.inited = true →
    s.replies = ⟨.ok, x⟩ :: ⟨.ok, [b0, b1, c]⟩ :: rest →
    let after (delays : Nat) (made : List Call) : State := { s with
      seq := .done, todo := [], answer := .noData, replies := rest, delayReturns := delays, calls := s.calls ++ made,
      rxbuf := ((s.rxbuf.set 0 b0).set 1 b1).set 2 c, rsp := ⟨.ok, none⟩ }
    exec .busReadTempHold s = .next (after s.delayReturns [.writeWaitNoStop 0x40 [0xE3], .readWait 0x40 3]) ∧
    exec .busReadHumidityHold s = .next (after s.delayReturns [.writeWaitNoStop 0x40 [0xE5], .readWait 0x40 3]) ∧
    ∀ d, s.delayReturns = d + 1 →
      exec .busReadTempPoll s = .next (after d
        [.writeWait 0x40 [0xF3], .delay (toMs s.session.temperatureConversionTimeUs), .readWait 0x40 3]) ∧
      exec .busReadHumidityPoll s = .next (after d
        [.writeWait 0x40 [0xF5], .delay (toMs s.session.humidityConversionTimeUs), .readWait 0x40 3])

/-- 30_encoding.md R87, 45_serial_number.md R181, R182: the two 16-bit opcodes fill their parts of the buffer. -/
def Obligations.SerialFramesFillTheirBatches : Prop :=
  ∀ (s : State) (x batch : List Byte) (rest : List Reply), s.inited = true → s.replies = ⟨.ok, x⟩ :: ⟨.ok, batch⟩ :: rest →
    (batch.length = 8 → ∃ buf : Vector Byte 14,
      exec .busReadSerialFirst8 s = .next { s with
        seq := .done, todo := [], answer := .noData, replies := rest, rxbuf := buf, rsp := ⟨.ok, none⟩,
        calls := s.calls ++ [.writeWaitNoStop 0x40 [0xFA, 0x0F], .readWait 0x40 8] } ∧
      buf.toList = batch ++ s.rxbuf.toList.drop 8) ∧
    (batch.length = 6 → ∃ buf : Vector Byte 14,
      exec .busReadSerialLast6 s = .next { s with
        seq := .done, todo := [], answer := .noData, replies := rest, rxbuf := buf, rsp := ⟨.ok, none⟩,
        calls := s.calls ++ [.writeWaitNoStop 0x40 [0xFC, 0xC9], .readWait 0x40 6] } ∧
      buf.toList = s.rxbuf.toList.take 8 ++ batch)

/-- 30_encoding.md R87: the reset opcode with its delay, and the two user-register opcodes. -/
def Obligations.ResetAndRegisterFramesDoWhatFollows : Prop :=
  (∀ (s : State) (x : List Byte) (rest : List Reply) (d : Nat), s.inited = true → s.delayReturns = d + 1 →
    s.replies = ⟨.ok, x⟩ :: rest →
    exec .busReset s = .next { s with
      seq := .done, todo := [], answer := .noData, replies := rest, delayReturns := d, rsp := ⟨.ok, none⟩,
      calls := s.calls ++ [.writeWait 0x40 [0xFE], .delay 15] }) ∧
  (∀ (s : State) (d : Byte) (x : List Byte) (rest : List Reply), s.inited = true → s.replies = ⟨.ok, x⟩ :: rest →
    exec (.busWriteUserRegister d) s = .next { s with
      seq := .done, todo := [], answer := .noData, replies := rest, rsp := ⟨.ok, none⟩,
      calls := s.calls ++ [.writeWait 0x40 [0xE6, d]] }) ∧
  (∀ (s : State) (x : List Byte) (b : Byte) (rest : List Reply), s.inited = true → s.replies = ⟨.ok, x⟩ :: ⟨.ok, [b]⟩ :: rest →
    exec .busReadUserRegister s = .next { s with
      seq := .done, todo := [], answer := .noData, replies := rest, rxbuf := s.rxbuf.set 0 b, regmirror := b,
      rsp := ⟨.ok, none⟩, calls := s.calls ++ [.writeWait 0x40 [0xE7], .readWait 0x40 1] })

/-- 41_bus_command_layer.md R130 to R133, 60_exceptions.md R214: a bus row whose command fails makes no call after it, one whose read fails has made
just its own calls, and either ends with the mapped status; but for the bytes the read was to fill, all else is as after the calls before
(that a row ends so is the model's choice: entry 5). -/
def Obligations.BusRowsEndAtTheirFirstFailure : Prop :=
  ∀ (s : State) (bad : TransportStatus) (x y : List Byte) (rest : List Reply), s.inited = true → bad ≠ .ok →
    let failed : Response := ⟨if bad = .bufferOverflow then .noAcknowledge else .transferError, none⟩
    let endsAfter (i : Instr) (first : Call) : Prop := exec i s = .next { s with
      seq := .done, todo := [], answer := .noData, replies := rest, calls := s.calls ++ [first], rsp := failed }
    let endsInRead (i : Instr) (base len delays : Nat) (made : List Call) : Prop :=
      ∃ (buf : Vector Byte 14) (n : Nat), exec i s = .next { s with
        seq := .done, todo := [], answer := .noData, replies := rest, delayReturns := delays, calls := s.calls ++ made,
        rxbuf := buf, free := n, rsp := failed } ∧
      ∀ (j : Nat) (h : j < 14), ¬ (base ≤ j ∧ j < base + len) → buf[j] = s.rxbuf[j]
    (s.replies = ⟨bad, x⟩ :: rest →
      endsAfter .busReset (.writeWait 0x40 [0xFE]) ∧
      endsAfter .busReadTempHold (.writeWaitNoStop 0x40 [0xE3]) ∧
      endsAfter .busReadTempPoll (.writeWait 0x40 [0xF3]) ∧
      endsAfter .busReadHumidityHold (.writeWaitNoStop 0x40 [0xE5]) ∧
      endsAfter .busReadHumidityPoll (.writeWait 0x40 [0xF5]) ∧
      endsAfter .busReadSerialFirst8 (.writeWaitNoStop 0x40 [0xFA, 0x0F]) ∧
      endsAfter .busReadSerialLast6 (.writeWaitNoStop 0x40 [0xFC, 0xC9]) ∧
      (∀ d, endsAfter (.busWriteUserRegister d) (.writeWait 0x40 [0xE6, d])) ∧
      endsAfter .busReadUserRegister (.writeWait 0x40 [0xE7])) ∧
    (s.replies = ⟨.ok, x⟩ :: ⟨bad, y⟩ :: rest →
      endsInRead .busReadTempHold 0 3 s.delayReturns [.writeWaitNoStop 0x40 [0xE3], .readWait 0x40 3] ∧
      endsInRead .busReadHumidityHold 0 3 s.delayReturns [.writeWaitNoStop 0x40 [0xE5], .readWait 0x40 3] ∧
      endsInRead .busReadSerialFirst8 0 8 s.delayReturns [.writeWaitNoStop 0x40 [0xFA, 0x0F], .readWait 0x40 8] ∧
      endsInRead .busReadSerialLast6 8 6 s.delayReturns [.writeWaitNoStop 0x40 [0xFC, 0xC9], .readWait 0x40 6] ∧
      endsInRead .busReadUserRegister 0 1 s.delayReturns [.writeWait 0x40 [0xE7], .readWait 0x40 1] ∧
      ∀ d, s.delayReturns = d + 1 →
        endsInRead .busReadTempPoll 0 3 d
          [.writeWait 0x40 [0xF3], .delay (toMs s.session.temperatureConversionTimeUs), .readWait 0x40 3] ∧
        endsInRead .busReadHumidityPoll 0 3 d
          [.writeWait 0x40 [0xF5], .delay (toMs s.session.humidityConversionTimeUs), .readWait 0x40 3])

/-! ### The whole machine -/

/-- 10_state.md R23: which requests write the session by exec, on every outcome, hang included (a step that resumes one is in
ResumedRequestKeepsToItsInstruction). That the nine bus rows write no session field, 0xFE among them, is the model's choice
(entry 5). -/
def Obligations.OnlyFourRequestsWriteTheSession : Prop :=
  ∀ (i : Instr) (s t : State), exec i s = .next t →
    match i with
    | .setMode m => t.session = { s.session with acquisitionMode := m }
    | .setResolution l =>
      t.session = { s.session with temperatureConversionTimeUs := timeT l, humidityConversionTimeUs := timeH l }
    | .reset => t.session = s.session ∨
      t.session = { s.session with temperatureConversionTimeUs := 50000, humidityConversionTimeUs := 16000 }
    | .init => t.session = ⟨.poll, 50000, 16000⟩
    | _ => t.session = s.session

/-- 60_exceptions.md R211, R210: a request that has ended by exec has one of the outcomes its kind may have, with data only when OK (a step
that resumes one is in ResumedRequestKeepsToItsInstruction). The outcomes of the nine bus rows are the model's choice (entry 5), and so is
the form of no data (entry 12). -/
def Obligations.OutcomesAreThoseOfTheRequest : Prop :=
  ∀ (i : Instr) (s t : State), exec i s = .next t → t.seq = .done →
    mayEnd i t.rsp.status = true ∧ (t.rsp.status ≠ .ok → t.rsp.data = none)

/-- 70_reset_and_hazards.md R254: the block adds no loop of its own, so an accepted instruction ends unless an answer is missing. That exec goes
that far at once, in one step of the machine, is the model's choice of a step (entry 1). -/
def Obligations.RequestEndsOrWaitsForAnAnswer : Prop :=
  ∀ (i : Instr) (s t : State), exec i s = .next t → (t.seq = .done ∧ t.todo = []) ∨ (t.waits = true ∧ t.PositionFits)

/-- 20_memory.md R62, R67: what an instruction does to the other agents is to add calls at the end of the list and to use up answers from
the front; it never touches the port, the waiting frames, the latch, the reset pin or the responses already given. -/
def Obligations.InstructionsOnlyAddCallsAndUseAnswers : Prop :=
  ∀ (i : Instr) (s t : State), exec i s = .next t →
    (∃ made, t.calls = s.calls ++ made) ∧ (∃ used, s.replies = used ++ t.replies) ∧
    t.delayReturns ≤ s.delayReturns ∧ t.initReturns ≤ s.initReturns ∧
    t.port = s.port ∧ t.frames = s.frames ∧ t.req = s.req ∧ t.resetPin = s.resetPin ∧ t.responses = s.responses

/-- Both invariants hold after reset: 10_state.md R22, R36. -/
def Obligations.ResetStateMeetsTheInvariant : Prop := State.reset.Inv ∧ State.reset.HostDriven

/-- Every step keeps the invariant: the session times come from one row (10_state.md R22), phase and position agree (R30), a response without
OK carries no data (30_encoding.md R83), every call is to address 0x40 with a frame, a length or one of nine delays the spec lists
(20_memory.md R50, R57, 30_encoding.md R85, R86), and the bus is used only after INIT (70_reset_and_hazards.md R242). -/
def Obligations.EveryStepKeepsTheInvariant : Prop :=
  ∀ s t : State, s.Inv → step s = .next t → t.Inv

/-- 70_reset_and_hazards.md R257: every step of a machine in which only the host issues anything leaves it one, so no frame is ever run by itself
there (entry 4); what is in progress is always a request on its path (10_state.md R31). -/
def Obligations.EveryStepStaysHostDriven : Prop :=
  ∀ s t : State, s.HostDriven → step s = .next t → t.HostDriven

/-- 30_encoding.md R98: where only the host issues anything, every byte any step writes with opcode 0xE6 has in the reserved positions the
bits of the byte read last, which `rxbuf[0]` holds (bit positions: the spec's choice D11, entry 18; a bus row run by itself is no part of
that machine, entry 4). -/
def Obligations.WrittenRegisterKeepsTheReservedBitsRead : Prop :=
  ∀ s t : State, s.HostDriven → step s = .next t →
    ∃ made, t.calls = s.calls ++ made ∧ ∀ address m, Call.writeWait address [0xE6, m] ∈ made → m &&& 0x38 = t.rx 0 &&& 0x38

/-- 70_reset_and_hazards.md R257 (a) to (c): where no frame waits, none ever will, and a step is the host's reset, or an idle block waiting or
taking one well-formed request word within the boot order (R242), or the host taking the response, or a request going on with the port
and the given responses left alone. -/
def Obligations.HostHasOnlyItsMoves : Prop :=
  ∀ s t : State, s.frames = [] → step s = .next t →
    t.frames = [] ∧
    (s.resetPin = true → t.seq = .idle ∧ t.inited = false ∧ t.port = s.port ∧ t.responses = s.responses) ∧
    (s.resetPin = false → s.seq = .idle →
      (s.port = [] ∧ t = s) ∨
      ∃ w rest i, s.port = w :: rest ∧ decode (.request w) = .ok i ∧ isRequest i = true ∧ (i = .init → s.inited = false) ∧
        (needsInit i = true → s.inited = true) ∧
        exec i { s with port := rest, req := ⟨w.extractLsb' 28 4, w.extractLsb' 0 24⟩ } = .next t) ∧
    (s.resetPin = false → s.seq = .done →
      t.seq = .idle ∧ t.responses = s.responses ++ [s.rsp] ∧ t.port = s.port ∧ t.session = s.session) ∧
    (s.resetPin = false → s.busy = true → t.port = s.port ∧ t.responses = s.responses)

/-- 10_state.md R23, R31, 60_exceptions.md R211: an instruction that waits is somewhere on its path, and a step that goes on with it, as often
as that happens, writes the session only as the instruction may, and ends it, if it does, with one of its outcomes (for the nine bus
rows these are the model's choice: entry 5; how far a step goes: entry 1). -/
def Obligations.ResumedRequestKeepsToItsInstruction : Prop :=
  (∀ (i : Instr) (s t : State), exec i s = .next t → t.busy = true → t.Serves i) ∧
  (∀ (i : Instr) (s t : State),
    s.Serves i → s.PositionFits → s.busy = true → s.resetPin = false → step s = .next t →
    (t.busy = true → t.Serves i ∧ t.PositionFits ∧ t.waits = true) ∧
    (t.session = s.session ∨
      match i with
      | .setMode m => t.session = { s.session with acquisitionMode := m }
      | .setResolution l =>
        t.session = { s.session with temperatureConversionTimeUs := timeT l, humidityConversionTimeUs := timeH l }
      | .reset => t.session = { s.session with temperatureConversionTimeUs := 50000, humidityConversionTimeUs := 16000 }
      | .init => t.session = ⟨.poll, 50000, 16000⟩
      | _ => False) ∧
    (t.busy = false → t.seq = .done ∧ mayEnd i t.rsp.status = true ∧ (t.rsp.status ≠ .ok → t.rsp.data = none)))

/-- Where the invariant holds the machine never faults: the model's own fault (entry 16) is out of reach. -/
def Obligations.NoStepFaultsUnderTheInvariant : Prop :=
  ∀ (s : State) (f : Fault), s.Inv → step s ≠ .fault f

/-- 10_state.md R24 to R26, R28, 60_exceptions.md R217: what an instruction does, seen by every other agent and in the session, does not depend on
the contents of `rxbuf`, `regmirror`, V, the CRC registers, the latch, the last response (taken, or never given), the position or the answer
kind before it, nor on the free values. -/
def Obligations.TransientRegistersDoNotMatter : Prop :=
  ∀ (i : Instr) (s t : State), s.erasedAtStart = t.erasedAtStart → erasedOutcome (exec i s) = erasedOutcome (exec i t)

/-- 10_state.md R31, 00_scope.md R8: a step of the machine is some finite number of phase transitions in a row, in every state, with the same
next state, fault or refusal. -/
def Obligations.StepIsARunOfPhaseTransitions : Prop :=
  ∀ s : State, ∃ n, 0 < n ∧ phaseSteps n s = step s

/-! ### The annex -/

/-- 47_unit_converter_annex.md R201, R202, R205: both conversions increase with the raw value and have the given ends. -/
def Obligations.ConversionsIncreaseBetweenTheGivenEnds : Prop :=
  (∀ a b : Nat, a < b → temperatureC a < temperatureC b ∧ humidityRH a < humidityRH b) ∧
  temperatureC 0 = -4685 / 100 ∧ humidityRH 0 = -6 ∧ temperatureC 65536 = 12887 / 100 ∧ humidityRH 65536 = 119 ∧
  temperatureC 65535 = 42227243 / 327680 ∧ humidityRH 65535 = 7798659 / 65536
end

