-- ==== Sys2Proof/Laws/Crc.lean ====
section
/-! SUPPORT. Iterations of the CRC datapath, one at a time from the end, and the three registers that are only shifted (40_crc8_validator.md R112). -/

namespace Sys2Proof.Machine

/-- One iteration more is an iteration after the others. -/
theorem iterateN_succ (n : Nat) (r : CrcRegs) : CrcRegs.iterateN (n+1) r = (CrcRegs.iterateN n r).iterate := by
  induction n generalizing r with
  | zero => rfl
  | succ n ih => rw [CrcRegs.iterateN, ih]; rfl

/-- The marker. -/
theorem iterN_msb (v) (n) : (CrcRegs.iterateN n (CrcRegs.load v)).msb = Config.crcMsb0 >>> n := by
  induction n with
  | zero => rfl
  | succ n ih => rw [iterateN_succ, CrcRegs.iterate, ih, ← BitVec.shiftRight_add]

/-- The mask. -/
theorem iterN_mask (v) (n) : (CrcRegs.iterateN n (CrcRegs.load v)).mask = Config.crcMask0 >>> n := by
  induction n with
  | zero => rfl
  | succ n ih => rw [iterateN_succ, CrcRegs.iterate, ih, ← BitVec.shiftRight_add]

/-- The polynomial. -/
theorem iterN_poly (v) (n) : (CrcRegs.iterateN n (CrcRegs.load v)).poly = Config.crcPoly0 >>> n := by
  induction n with
  | zero => rfl
  | succ n ih => rw [iterateN_succ, CrcRegs.iterate, ih, ← BitVec.shiftRight_add]

end Sys2Proof.Machine
end

