-- ==== Sys2Proof/Laws/Encoding.lean ====
section
/-! SUPPORT. The fields of a request word and of a 16-bit opcode, taken apart and put together (30_encoding.md R80, R89). -/

namespace Sys2Proof

/-- The code of a request word is the code it was built from. -/
theorem requestOp_requestWord (op : BitVec 4) (arg : BitVec 24) : requestOp (requestWord op arg) = op := by
  apply BitVec.eq_of_getLsbD_eq
  intro i hi
  simp only [requestOp, requestWord, BitVec.getLsbD_extractLsb', BitVec.getLsbD_append]
  simp [hi, show ¬ (28 + i < 24) by omega, show 28+i-24-4 = i by omega]
  intro; omega

/-- Its argument is the argument it was built from. -/
theorem requestArg_requestWord (op : BitVec 4) (arg : BitVec 24) : requestArg (requestWord op arg) = arg := by
  apply BitVec.eq_of_getLsbD_eq
  intro i hi
  simp only [requestArg, requestWord, BitVec.getLsbD_extractLsb', BitVec.getLsbD_append]
  simp [hi]

/-- Its bits 27:24 are zero. -/
theorem reserved_requestWord (op : BitVec 4) (arg : BitVec 24) : (requestWord op arg).extractLsb' 24 4 = 0 := by
  apply BitVec.eq_of_getLsbD_eq
  intro i hi
  simp only [requestWord, BitVec.getLsbD_extractLsb', BitVec.getLsbD_append]
  simp [hi, show ¬ (24 + i < 24) by omega]

/-- A word whose bits 27:24 are zero is built from its code and its argument. -/
theorem requestWord_fields {w : RequestWord} (h : w.extractLsb' 24 4 = 0) : requestWord (requestOp w) (requestArg w) = w := by
  apply BitVec.eq_of_getLsbD_eq
  intro i hi
  simp only [requestArg, requestOp, requestWord, BitVec.getLsbD_extractLsb', BitVec.getLsbD_append]
  by_cases h1 : i < 24
  · simp [h1]
  · by_cases h2 : i < 28
    · have := congrArg (fun v => v.getLsbD (i-24)) h
      simp [h1, show i - 24 < 4 by omega, show 24 + (i - 24) = i by omega] at this ⊢
      simp [this]
    · simp [h1, show ¬ i-24<4 by omega, show i-24-4<4 by omega, show 28 + (i-24-4) = i by omega]

/-- The low byte of a zero-extended byte. -/
theorem low8_zeroExtend (v : Byte) : (v.zeroExtend 24).extractLsb' 0 8 = v := by
  apply BitVec.eq_of_getLsbD_eq
  intro i hi; simp [hi, show i < 24 by omega]

/-- A zero-extended byte has none of the upper sixteen argument bits. -/
theorem high16_zeroExtend (v : Byte) : (v.zeroExtend 24) &&& (0xFFFF00 : BitVec 24) = 0 := by
  have : ∀ v : Byte, (v.zeroExtend 24) &&& (0xFFFF00 : BitVec 24) = 0 := by decide
  exact this v

/-- The value field of a CRC_CHECK argument. -/
theorem value_append (value : Half) (crc : Byte) : (value ++ crc : BitVec 24).extractLsb' 8 16 = value := by
  apply BitVec.eq_of_getLsbD_eq
  intro i hi; simp only [BitVec.getLsbD_extractLsb', hi]; rw [BitVec.getLsbD_append]; simp

/-- The checksum field of a CRC_CHECK argument. -/
theorem crc_append (value : Half) (crc : Byte) : (value ++ crc : BitVec 24).extractLsb' 0 8 = crc := by
  apply BitVec.eq_of_getLsbD_eq
  intro i hi; simp only [BitVec.getLsbD_extractLsb', hi]; rw [BitVec.getLsbD_append]; simp [hi]

/-- Splitting two joined bytes gives the two bytes. -/
theorem splitOpcode_append (hi lo : Byte) : splitOpcode (hi ++ lo) = [hi, lo] := by
  have h1 : (hi ++ lo : Half).extractLsb' 8 8 = hi := by
    apply BitVec.eq_of_getLsbD_eq
    intro i h; simp only [BitVec.getLsbD_extractLsb', h]; rw [BitVec.getLsbD_append]; simp
  have h2 : (hi ++ lo : Half).extractLsb' 0 8 = lo := by
    apply BitVec.eq_of_getLsbD_eq
    intro i h; simp only [BitVec.getLsbD_extractLsb', h]; rw [BitVec.getLsbD_append]; simp [h]
  unfold splitOpcode; rw [h1, h2]

/-- A packet accepted on condition that its unused bits are zero has them zero. -/
theorem whenZero_ok {u op arg i j} (h : whenZero u op arg i = .ok j) : u = 0 ∧ i = j := by
  unfold whenZero at h; split at h <;> cases h; exact ⟨‹_›, rfl⟩

end Sys2Proof
end

