-- ==== Sys2Proof/Laws/State.lean ====
section
/-! SUPPORT. What each update does to each field, true by unfolding: no later proof unfolds a record update. -/

namespace Sys2Proof.Machine

variable (s : State)

/-! ### `State.raise` -/

@[simp] theorem State.raise_session (status : Status) : (s.raise status).session = s.session := rfl
@[simp] theorem State.raise_rxbuf (status : Status) : (s.raise status).rxbuf = s.rxbuf := rfl
@[simp] theorem State.raise_regmirror (status : Status) : (s.raise status).regmirror = s.regmirror := rfl
@[simp] theorem State.raise_crc (status : Status) : (s.raise status).crc = s.crc := rfl
@[simp] theorem State.raise_rsp (status : Status) : (s.raise status).rsp = ⟨status, none⟩ := rfl
@[simp] theorem State.raise_req (status : Status) : (s.raise status).req = s.req := rfl
@[simp] theorem State.raise_seq (status : Status) : (s.raise status).seq = .done := rfl
@[simp] theorem State.raise_inited (status : Status) : (s.raise status).inited = s.inited := rfl
@[simp] theorem State.raise_todo (status : Status) : (s.raise status).todo = [] := rfl
@[simp] theorem State.raise_answer (status : Status) : (s.raise status).answer = s.answer := rfl
@[simp] theorem State.raise_vArg (status : Status) : (s.raise status).vArg = s.vArg := rfl
@[simp] theorem State.raise_port (status : Status) : (s.raise status).port = s.port := rfl
@[simp] theorem State.raise_frames (status : Status) : (s.raise status).frames = s.frames := rfl
@[simp] theorem State.raise_resetPin (status : Status) : (s.raise status).resetPin = s.resetPin := rfl
@[simp] theorem State.raise_replies (status : Status) : (s.raise status).replies = s.replies := rfl
@[simp] theorem State.raise_initReturns (status : Status) : (s.raise status).initReturns = s.initReturns := rfl
@[simp] theorem State.raise_delayReturns (status : Status) : (s.raise status).delayReturns = s.delayReturns := rfl
@[simp] theorem State.raise_calls (status : Status) : (s.raise status).calls = s.calls := rfl
@[simp] theorem State.raise_responses (status : Status) : (s.raise status).responses = s.responses := rfl
@[simp] theorem State.raise_free (status : Status) : (s.raise status).free = s.free := rfl

/-! ### `State.respond` -/

@[simp] theorem State.respond_session (data : Option (BitVec 64)) : (s.respond data).session = s.session := rfl
@[simp] theorem State.respond_rxbuf (data : Option (BitVec 64)) : (s.respond data).rxbuf = s.rxbuf := rfl
@[simp] theorem State.respond_regmirror (data : Option (BitVec 64)) : (s.respond data).regmirror = s.regmirror := rfl
@[simp] theorem State.respond_crc (data : Option (BitVec 64)) : (s.respond data).crc = s.crc := rfl
@[simp] theorem State.respond_rsp (data : Option (BitVec 64)) : (s.respond data).rsp = ⟨.ok, data⟩ := rfl
@[simp] theorem State.respond_req (data : Option (BitVec 64)) : (s.respond data).req = s.req := rfl
@[simp] theorem State.respond_seq (data : Option (BitVec 64)) : (s.respond data).seq = .done := rfl
@[simp] theorem State.respond_inited (data : Option (BitVec 64)) : (s.respond data).inited = s.inited := rfl
@[simp] theorem State.respond_todo (data : Option (BitVec 64)) : (s.respond data).todo = [] := rfl
@[simp] theorem State.respond_answer (data : Option (BitVec 64)) : (s.respond data).answer = s.answer := rfl
@[simp] theorem State.respond_vArg (data : Option (BitVec 64)) : (s.respond data).vArg = s.vArg := rfl
@[simp] theorem State.respond_port (data : Option (BitVec 64)) : (s.respond data).port = s.port := rfl
@[simp] theorem State.respond_frames (data : Option (BitVec 64)) : (s.respond data).frames = s.frames := rfl
@[simp] theorem State.respond_resetPin (data : Option (BitVec 64)) : (s.respond data).resetPin = s.resetPin := rfl
@[simp] theorem State.respond_replies (data : Option (BitVec 64)) : (s.respond data).replies = s.replies := rfl
@[simp] theorem State.respond_initReturns (data : Option (BitVec 64)) : (s.respond data).initReturns = s.initReturns := rfl
@[simp] theorem State.respond_delayReturns (data : Option (BitVec 64)) : (s.respond data).delayReturns = s.delayReturns := rfl
@[simp] theorem State.respond_calls (data : Option (BitVec 64)) : (s.respond data).calls = s.calls := rfl
@[simp] theorem State.respond_responses (data : Option (BitVec 64)) : (s.respond data).responses = s.responses := rfl
@[simp] theorem State.respond_free (data : Option (BitVec 64)) : (s.respond data).free = s.free := rfl

/-! ### `State.takeResponse` -/

@[simp] theorem State.takeResponse_session : (s.takeResponse).session = s.session := rfl
@[simp] theorem State.takeResponse_crc : (s.takeResponse).crc = s.crc := rfl
@[simp] theorem State.takeResponse_rsp : (s.takeResponse).rsp = s.rsp := rfl
@[simp] theorem State.takeResponse_req : (s.takeResponse).req = s.req := rfl
@[simp] theorem State.takeResponse_seq : (s.takeResponse).seq = .idle := rfl
@[simp] theorem State.takeResponse_inited : (s.takeResponse).inited = s.inited := rfl
@[simp] theorem State.takeResponse_todo : (s.takeResponse).todo = [] := rfl
@[simp] theorem State.takeResponse_answer : (s.takeResponse).answer = s.answer := rfl
@[simp] theorem State.takeResponse_port : (s.takeResponse).port = s.port := rfl
@[simp] theorem State.takeResponse_frames : (s.takeResponse).frames = s.frames := rfl
@[simp] theorem State.takeResponse_resetPin : (s.takeResponse).resetPin = s.resetPin := rfl
@[simp] theorem State.takeResponse_replies : (s.takeResponse).replies = s.replies := rfl
@[simp] theorem State.takeResponse_initReturns : (s.takeResponse).initReturns = s.initReturns := rfl
@[simp] theorem State.takeResponse_delayReturns : (s.takeResponse).delayReturns = s.delayReturns := rfl
@[simp] theorem State.takeResponse_calls : (s.takeResponse).calls = s.calls := rfl
@[simp] theorem State.takeResponse_responses : (s.takeResponse).responses = s.responses ++ [s.rsp] := rfl

/-! ### `State.spoilRead` -/

@[simp] theorem State.spoilRead_session (len base : Nat) : (s.spoilRead len base).session = s.session := rfl
@[simp] theorem State.spoilRead_rxbuf (len base : Nat) : (s.spoilRead len base).rxbuf = fillBuffer s.rxbuf base (freeBytes s.free len) := rfl
@[simp] theorem State.spoilRead_regmirror (len base : Nat) : (s.spoilRead len base).regmirror = s.regmirror := rfl
@[simp] theorem State.spoilRead_crc (len base : Nat) : (s.spoilRead len base).crc = s.crc := rfl
@[simp] theorem State.spoilRead_rsp (len base : Nat) : (s.spoilRead len base).rsp = s.rsp := rfl
@[simp] theorem State.spoilRead_req (len base : Nat) : (s.spoilRead len base).req = s.req := rfl
@[simp] theorem State.spoilRead_seq (len base : Nat) : (s.spoilRead len base).seq = s.seq := rfl
@[simp] theorem State.spoilRead_inited (len base : Nat) : (s.spoilRead len base).inited = s.inited := rfl
@[simp] theorem State.spoilRead_todo (len base : Nat) : (s.spoilRead len base).todo = s.todo := rfl
@[simp] theorem State.spoilRead_answer (len base : Nat) : (s.spoilRead len base).answer = s.answer := rfl
@[simp] theorem State.spoilRead_vArg (len base : Nat) : (s.spoilRead len base).vArg = s.vArg := rfl
@[simp] theorem State.spoilRead_port (len base : Nat) : (s.spoilRead len base).port = s.port := rfl
@[simp] theorem State.spoilRead_frames (len base : Nat) : (s.spoilRead len base).frames = s.frames := rfl
@[simp] theorem State.spoilRead_resetPin (len base : Nat) : (s.spoilRead len base).resetPin = s.resetPin := rfl
@[simp] theorem State.spoilRead_replies (len base : Nat) : (s.spoilRead len base).replies = s.replies := rfl
@[simp] theorem State.spoilRead_initReturns (len base : Nat) : (s.spoilRead len base).initReturns = s.initReturns := rfl
@[simp] theorem State.spoilRead_delayReturns (len base : Nat) : (s.spoilRead len base).delayReturns = s.delayReturns := rfl
@[simp] theorem State.spoilRead_calls (len base : Nat) : (s.spoilRead len base).calls = s.calls := rfl
@[simp] theorem State.spoilRead_responses (len base : Nat) : (s.spoilRead len base).responses = s.responses := rfl
@[simp] theorem State.spoilRead_free (len base : Nat) : (s.spoilRead len base).free = s.free + len := rfl

/-! ### `State.spoilCrc` -/

@[simp] theorem State.spoilCrc_session : (s.spoilCrc).session = s.session := rfl
@[simp] theorem State.spoilCrc_rxbuf : (s.spoilCrc).rxbuf = s.rxbuf := rfl
@[simp] theorem State.spoilCrc_regmirror : (s.spoilCrc).regmirror = s.regmirror := rfl
@[simp] theorem State.spoilCrc_rsp : (s.spoilCrc).rsp = s.rsp := rfl
@[simp] theorem State.spoilCrc_req : (s.spoilCrc).req = s.req := rfl
@[simp] theorem State.spoilCrc_seq : (s.spoilCrc).seq = s.seq := rfl
@[simp] theorem State.spoilCrc_inited : (s.spoilCrc).inited = s.inited := rfl
@[simp] theorem State.spoilCrc_todo : (s.spoilCrc).todo = s.todo := rfl
@[simp] theorem State.spoilCrc_answer : (s.spoilCrc).answer = s.answer := rfl
@[simp] theorem State.spoilCrc_vArg : (s.spoilCrc).vArg = s.vArg := rfl
@[simp] theorem State.spoilCrc_port : (s.spoilCrc).port = s.port := rfl
@[simp] theorem State.spoilCrc_frames : (s.spoilCrc).frames = s.frames := rfl
@[simp] theorem State.spoilCrc_resetPin : (s.spoilCrc).resetPin = s.resetPin := rfl
@[simp] theorem State.spoilCrc_replies : (s.spoilCrc).replies = s.replies := rfl
@[simp] theorem State.spoilCrc_initReturns : (s.spoilCrc).initReturns = s.initReturns := rfl
@[simp] theorem State.spoilCrc_delayReturns : (s.spoilCrc).delayReturns = s.delayReturns := rfl
@[simp] theorem State.spoilCrc_calls : (s.spoilCrc).calls = s.calls := rfl
@[simp] theorem State.spoilCrc_responses : (s.spoilCrc).responses = s.responses := rfl
@[simp] theorem State.spoilCrc_free : (s.spoilCrc).free = s.free + 4 := rfl

/-! ### `State.setTimes` -/

@[simp] theorem State.setTimes_session (l : Level) : (s.setTimes l).session = { s.session with temperatureConversionTimeUs := timeT l, humidityConversionTimeUs := timeH l } := rfl
@[simp] theorem State.setTimes_rxbuf (l : Level) : (s.setTimes l).rxbuf = s.rxbuf := rfl
@[simp] theorem State.setTimes_regmirror (l : Level) : (s.setTimes l).regmirror = s.regmirror := rfl
@[simp] theorem State.setTimes_crc (l : Level) : (s.setTimes l).crc = s.crc := rfl
@[simp] theorem State.setTimes_rsp (l : Level) : (s.setTimes l).rsp = s.rsp := rfl
@[simp] theorem State.setTimes_req (l : Level) : (s.setTimes l).req = s.req := rfl
@[simp] theorem State.setTimes_seq (l : Level) : (s.setTimes l).seq = s.seq := rfl
@[simp] theorem State.setTimes_inited (l : Level) : (s.setTimes l).inited = s.inited := rfl
@[simp] theorem State.setTimes_todo (l : Level) : (s.setTimes l).todo = s.todo := rfl
@[simp] theorem State.setTimes_answer (l : Level) : (s.setTimes l).answer = s.answer := rfl
@[simp] theorem State.setTimes_vArg (l : Level) : (s.setTimes l).vArg = s.vArg := rfl
@[simp] theorem State.setTimes_port (l : Level) : (s.setTimes l).port = s.port := rfl
@[simp] theorem State.setTimes_frames (l : Level) : (s.setTimes l).frames = s.frames := rfl
@[simp] theorem State.setTimes_resetPin (l : Level) : (s.setTimes l).resetPin = s.resetPin := rfl
@[simp] theorem State.setTimes_replies (l : Level) : (s.setTimes l).replies = s.replies := rfl
@[simp] theorem State.setTimes_initReturns (l : Level) : (s.setTimes l).initReturns = s.initReturns := rfl
@[simp] theorem State.setTimes_delayReturns (l : Level) : (s.setTimes l).delayReturns = s.delayReturns := rfl
@[simp] theorem State.setTimes_calls (l : Level) : (s.setTimes l).calls = s.calls := rfl
@[simp] theorem State.setTimes_responses (l : Level) : (s.setTimes l).responses = s.responses := rfl
@[simp] theorem State.setTimes_free (l : Level) : (s.setTimes l).free = s.free := rfl

/-! ### `State.setMode` -/

@[simp] theorem State.setMode_session (m : AcqMode) : (s.setMode m).session = { s.session with acquisitionMode := m } := rfl
@[simp] theorem State.setMode_rxbuf (m : AcqMode) : (s.setMode m).rxbuf = s.rxbuf := rfl
@[simp] theorem State.setMode_regmirror (m : AcqMode) : (s.setMode m).regmirror = s.regmirror := rfl
@[simp] theorem State.setMode_crc (m : AcqMode) : (s.setMode m).crc = s.crc := rfl
@[simp] theorem State.setMode_rsp (m : AcqMode) : (s.setMode m).rsp = s.rsp := rfl
@[simp] theorem State.setMode_req (m : AcqMode) : (s.setMode m).req = s.req := rfl
@[simp] theorem State.setMode_seq (m : AcqMode) : (s.setMode m).seq = s.seq := rfl
@[simp] theorem State.setMode_inited (m : AcqMode) : (s.setMode m).inited = s.inited := rfl
@[simp] theorem State.setMode_todo (m : AcqMode) : (s.setMode m).todo = s.todo := rfl
@[simp] theorem State.setMode_answer (m : AcqMode) : (s.setMode m).answer = s.answer := rfl
@[simp] theorem State.setMode_vArg (m : AcqMode) : (s.setMode m).vArg = s.vArg := rfl
@[simp] theorem State.setMode_port (m : AcqMode) : (s.setMode m).port = s.port := rfl
@[simp] theorem State.setMode_frames (m : AcqMode) : (s.setMode m).frames = s.frames := rfl
@[simp] theorem State.setMode_resetPin (m : AcqMode) : (s.setMode m).resetPin = s.resetPin := rfl
@[simp] theorem State.setMode_replies (m : AcqMode) : (s.setMode m).replies = s.replies := rfl
@[simp] theorem State.setMode_initReturns (m : AcqMode) : (s.setMode m).initReturns = s.initReturns := rfl
@[simp] theorem State.setMode_delayReturns (m : AcqMode) : (s.setMode m).delayReturns = s.delayReturns := rfl
@[simp] theorem State.setMode_calls (m : AcqMode) : (s.setMode m).calls = s.calls := rfl
@[simp] theorem State.setMode_responses (m : AcqMode) : (s.setMode m).responses = s.responses := rfl
@[simp] theorem State.setMode_free (m : AcqMode) : (s.setMode m).free = s.free := rfl

/-! ### `State.setDefaults` -/

@[simp] theorem State.setDefaults_session : (s.setDefaults).session = ⟨Config.resetMode, timeT .L0, timeH .L0⟩ := rfl
@[simp] theorem State.setDefaults_rxbuf : (s.setDefaults).rxbuf = s.rxbuf := rfl
@[simp] theorem State.setDefaults_regmirror : (s.setDefaults).regmirror = s.regmirror := rfl
@[simp] theorem State.setDefaults_crc : (s.setDefaults).crc = s.crc := rfl
@[simp] theorem State.setDefaults_rsp : (s.setDefaults).rsp = s.rsp := rfl
@[simp] theorem State.setDefaults_req : (s.setDefaults).req = s.req := rfl
@[simp] theorem State.setDefaults_seq : (s.setDefaults).seq = s.seq := rfl
@[simp] theorem State.setDefaults_inited : (s.setDefaults).inited = s.inited := rfl
@[simp] theorem State.setDefaults_todo : (s.setDefaults).todo = s.todo := rfl
@[simp] theorem State.setDefaults_answer : (s.setDefaults).answer = s.answer := rfl
@[simp] theorem State.setDefaults_vArg : (s.setDefaults).vArg = s.vArg := rfl
@[simp] theorem State.setDefaults_port : (s.setDefaults).port = s.port := rfl
@[simp] theorem State.setDefaults_frames : (s.setDefaults).frames = s.frames := rfl
@[simp] theorem State.setDefaults_resetPin : (s.setDefaults).resetPin = s.resetPin := rfl
@[simp] theorem State.setDefaults_replies : (s.setDefaults).replies = s.replies := rfl
@[simp] theorem State.setDefaults_initReturns : (s.setDefaults).initReturns = s.initReturns := rfl
@[simp] theorem State.setDefaults_delayReturns : (s.setDefaults).delayReturns = s.delayReturns := rfl
@[simp] theorem State.setDefaults_calls : (s.setDefaults).calls = s.calls := rfl
@[simp] theorem State.setDefaults_responses : (s.setDefaults).responses = s.responses := rfl
@[simp] theorem State.setDefaults_free : (s.setDefaults).free = s.free := rfl

/-! ### `State.accept` -/

@[simp] theorem State.accept_session (w : RequestWord) (rest : List RequestWord) : (s.accept w rest).session = s.session := rfl
@[simp] theorem State.accept_rxbuf (w : RequestWord) (rest : List RequestWord) : (s.accept w rest).rxbuf = s.rxbuf := rfl
@[simp] theorem State.accept_regmirror (w : RequestWord) (rest : List RequestWord) : (s.accept w rest).regmirror = s.regmirror := rfl
@[simp] theorem State.accept_crc (w : RequestWord) (rest : List RequestWord) : (s.accept w rest).crc = s.crc := rfl
@[simp] theorem State.accept_rsp (w : RequestWord) (rest : List RequestWord) : (s.accept w rest).rsp = s.rsp := rfl
@[simp] theorem State.accept_req (w : RequestWord) (rest : List RequestWord) : (s.accept w rest).req = ⟨requestOp w, requestArg w⟩ := rfl
@[simp] theorem State.accept_seq (w : RequestWord) (rest : List RequestWord) : (s.accept w rest).seq = s.seq := rfl
@[simp] theorem State.accept_inited (w : RequestWord) (rest : List RequestWord) : (s.accept w rest).inited = s.inited := rfl
@[simp] theorem State.accept_todo (w : RequestWord) (rest : List RequestWord) : (s.accept w rest).todo = s.todo := rfl
@[simp] theorem State.accept_answer (w : RequestWord) (rest : List RequestWord) : (s.accept w rest).answer = s.answer := rfl
@[simp] theorem State.accept_vArg (w : RequestWord) (rest : List RequestWord) : (s.accept w rest).vArg = s.vArg := rfl
@[simp] theorem State.accept_port (w : RequestWord) (rest : List RequestWord) : (s.accept w rest).port = rest := rfl
@[simp] theorem State.accept_frames (w : RequestWord) (rest : List RequestWord) : (s.accept w rest).frames = s.frames := rfl
@[simp] theorem State.accept_resetPin (w : RequestWord) (rest : List RequestWord) : (s.accept w rest).resetPin = s.resetPin := rfl
@[simp] theorem State.accept_replies (w : RequestWord) (rest : List RequestWord) : (s.accept w rest).replies = s.replies := rfl
@[simp] theorem State.accept_initReturns (w : RequestWord) (rest : List RequestWord) : (s.accept w rest).initReturns = s.initReturns := rfl
@[simp] theorem State.accept_delayReturns (w : RequestWord) (rest : List RequestWord) : (s.accept w rest).delayReturns = s.delayReturns := rfl
@[simp] theorem State.accept_calls (w : RequestWord) (rest : List RequestWord) : (s.accept w rest).calls = s.calls := rfl
@[simp] theorem State.accept_responses (w : RequestWord) (rest : List RequestWord) : (s.accept w rest).responses = s.responses := rfl
@[simp] theorem State.accept_free (w : RequestWord) (rest : List RequestWord) : (s.accept w rest).free = s.free := rfl

/-! ### `State.takeFrame` -/

@[simp] theorem State.takeFrame_session (rest : List (List Byte)) : (s.takeFrame rest).session = s.session := rfl
@[simp] theorem State.takeFrame_rxbuf (rest : List (List Byte)) : (s.takeFrame rest).rxbuf = s.rxbuf := rfl
@[simp] theorem State.takeFrame_regmirror (rest : List (List Byte)) : (s.takeFrame rest).regmirror = s.regmirror := rfl
@[simp] theorem State.takeFrame_crc (rest : List (List Byte)) : (s.takeFrame rest).crc = s.crc := rfl
@[simp] theorem State.takeFrame_rsp (rest : List (List Byte)) : (s.takeFrame rest).rsp = s.rsp := rfl
@[simp] theorem State.takeFrame_req (rest : List (List Byte)) : (s.takeFrame rest).req = s.req := rfl
@[simp] theorem State.takeFrame_seq (rest : List (List Byte)) : (s.takeFrame rest).seq = s.seq := rfl
@[simp] theorem State.takeFrame_inited (rest : List (List Byte)) : (s.takeFrame rest).inited = s.inited := rfl
@[simp] theorem State.takeFrame_todo (rest : List (List Byte)) : (s.takeFrame rest).todo = s.todo := rfl
@[simp] theorem State.takeFrame_answer (rest : List (List Byte)) : (s.takeFrame rest).answer = s.answer := rfl
@[simp] theorem State.takeFrame_vArg (rest : List (List Byte)) : (s.takeFrame rest).vArg = s.vArg := rfl
@[simp] theorem State.takeFrame_port (rest : List (List Byte)) : (s.takeFrame rest).port = s.port := rfl
@[simp] theorem State.takeFrame_frames (rest : List (List Byte)) : (s.takeFrame rest).frames = rest := rfl
@[simp] theorem State.takeFrame_resetPin (rest : List (List Byte)) : (s.takeFrame rest).resetPin = s.resetPin := rfl
@[simp] theorem State.takeFrame_replies (rest : List (List Byte)) : (s.takeFrame rest).replies = s.replies := rfl
@[simp] theorem State.takeFrame_initReturns (rest : List (List Byte)) : (s.takeFrame rest).initReturns = s.initReturns := rfl
@[simp] theorem State.takeFrame_delayReturns (rest : List (List Byte)) : (s.takeFrame rest).delayReturns = s.delayReturns := rfl
@[simp] theorem State.takeFrame_calls (rest : List (List Byte)) : (s.takeFrame rest).calls = s.calls := rfl
@[simp] theorem State.takeFrame_responses (rest : List (List Byte)) : (s.takeFrame rest).responses = s.responses := rfl
@[simp] theorem State.takeFrame_free (rest : List (List Byte)) : (s.takeFrame rest).free = s.free := rfl

/-! ### `State.hardwareReset` -/

@[simp] theorem State.hardwareReset_session : (s.hardwareReset).session = ⟨Config.resetMode, timeT .L0, timeH .L0⟩ := rfl
@[simp] theorem State.hardwareReset_seq : (s.hardwareReset).seq = .idle := rfl
@[simp] theorem State.hardwareReset_inited : (s.hardwareReset).inited = false := rfl
@[simp] theorem State.hardwareReset_todo : (s.hardwareReset).todo = [] := rfl
@[simp] theorem State.hardwareReset_answer : (s.hardwareReset).answer = .noData := rfl
@[simp] theorem State.hardwareReset_port : (s.hardwareReset).port = s.port := rfl
@[simp] theorem State.hardwareReset_frames : (s.hardwareReset).frames = s.frames := rfl
@[simp] theorem State.hardwareReset_resetPin : (s.hardwareReset).resetPin = false := rfl
@[simp] theorem State.hardwareReset_replies : (s.hardwareReset).replies = s.replies := rfl
@[simp] theorem State.hardwareReset_initReturns : (s.hardwareReset).initReturns = s.initReturns := rfl
@[simp] theorem State.hardwareReset_delayReturns : (s.hardwareReset).delayReturns = s.delayReturns := rfl
@[simp] theorem State.hardwareReset_calls : (s.hardwareReset).calls = s.calls := rfl
@[simp] theorem State.hardwareReset_responses : (s.hardwareReset).responses = s.responses := rfl

/-! ### `State.enter` -/

@[simp] theorem State.enter_session : s.enter.session = s.session := by
  unfold State.enter; split <;> simp_all
@[simp] theorem State.enter_rxbuf : s.enter.rxbuf = s.rxbuf := by
  unfold State.enter; split <;> simp_all
@[simp] theorem State.enter_regmirror : s.enter.regmirror = s.regmirror := by
  unfold State.enter; split <;> simp_all
@[simp] theorem State.enter_req : s.enter.req = s.req := by
  unfold State.enter; split <;> simp_all
@[simp] theorem State.enter_inited : s.enter.inited = s.inited := by
  unfold State.enter; split <;> simp_all
@[simp] theorem State.enter_todo : s.enter.todo = s.todo := by
  unfold State.enter; split <;> simp_all
@[simp] theorem State.enter_answer : s.enter.answer = s.answer := by
  unfold State.enter; split <;> simp_all
@[simp] theorem State.enter_vArg : s.enter.vArg = s.vArg := by
  unfold State.enter; split <;> simp_all
@[simp] theorem State.enter_port : s.enter.port = s.port := by
  unfold State.enter; split <;> simp_all
@[simp] theorem State.enter_frames : s.enter.frames = s.frames := by
  unfold State.enter; split <;> simp_all
@[simp] theorem State.enter_resetPin : s.enter.resetPin = s.resetPin := by
  unfold State.enter; split <;> simp_all
@[simp] theorem State.enter_replies : s.enter.replies = s.replies := by
  unfold State.enter; split <;> simp_all
@[simp] theorem State.enter_initReturns : s.enter.initReturns = s.initReturns := by
  unfold State.enter; split <;> simp_all
@[simp] theorem State.enter_delayReturns : s.enter.delayReturns = s.delayReturns := by
  unfold State.enter; split <;> simp_all
@[simp] theorem State.enter_responses : s.enter.responses = s.responses := by
  unfold State.enter; split <;> simp_all
@[simp] theorem State.enter_free : s.enter.free = s.free := by
  unfold State.enter; split <;> simp_all

/-- Entering a step: its phase, its call, and for a check the loaded datapath. -/
theorem State.enter_cons {s : State} {m : Micro} {rest : List Micro} (h : s.todo = m :: rest) :
    s.enter = { s with seq := m.phase, calls := s.calls ++ s.callOf m, crc := s.crcOnEntry m } := by
  simp [State.enter, h]

/-- Entering the end of a path: the request ends OK. -/
theorem State.enter_nil {s : State} (h : s.todo = []) : s.enter = s.respond (s.answerData s.answer) := by
  simp [State.enter, h]

end Sys2Proof.Machine
end

