-- ==== Sys2Proof/Laws/Run.lean ====
section
/-! SUPPORT. What leaving a step can do, said once, and the one induction over a path. -/

namespace Sys2Proof.Machine

/-- The fields that only the port, a response taken or a hardware reset write. -/
def State.SameOutside (s t : State) : Prop :=
  t.port = s.port ∧ t.frames = s.frames ∧ t.req = s.req ∧ t.resetPin = s.resetPin ∧ t.responses = s.responses

/-- Answers are used up from the front. -/
def State.UsesAnswersOf (t s : State) : Prop :=
  (∃ used, s.replies = used ++ t.replies) ∧ t.delayReturns ≤ s.delayReturns ∧ t.initReturns ≤ s.initReturns

theorem State.UsesAnswersOf.refl (s : State) : s.UsesAnswersOf s := ⟨⟨[], rfl⟩, le_rfl, le_rfl⟩

theorem State.UsesAnswersOf.trans {s t u : State} (h : t.UsesAnswersOf s) (k : u.UsesAnswersOf t) : u.UsesAnswersOf s := by
  obtain ⟨⟨a, ha⟩, h2, h3⟩ := h
  obtain ⟨⟨b, hb⟩, k2, k3⟩ := k
  exact ⟨⟨a ++ b, by rw [ha, hb, List.append_assoc]⟩, k2.trans h2, k3.trans h3⟩

/-- A write's answer: taken from the front, and nothing else changes but on failure the response, the phase and the position. -/
theorem awaitWrite_cases (s : State) :
    (s.replies = [] ∧ s.awaitWrite = .stay) ∨
    (∃ r rest, s.replies = r :: rest ∧ r.status = .ok ∧ s.awaitWrite = .go { s with replies := rest }) ∨
    (∃ r rest, s.replies = r :: rest ∧ r.status ≠ .ok ∧
      s.awaitWrite = .stop ({ s with replies := rest }.raise (mapStatus r.status))) := by
  unfold State.awaitWrite
  cases h : s.replies with
  | nil => simp
  | cons r rest => rcases r with ⟨st, b⟩; cases st <;> simp [mapStatus]

/-- A read's answer. -/
theorem awaitRead_cases (s : State) (len base : Nat) :
    (s.replies = [] ∧ s.awaitRead len base = .stay) ∨
    (∃ r rest, s.replies = r :: rest ∧ r.status = .ok ∧ r.bytes.length = len ∧
      s.awaitRead len base = .go { s with replies := rest, rxbuf := fillBuffer s.rxbuf base r.bytes }) ∨
    (∃ r rest, s.replies = r :: rest ∧ r.status = .ok ∧ r.bytes.length ≠ len ∧
      s.awaitRead len base = .refuse (.readLength len r.bytes.length)) ∨
    (∃ r rest, s.replies = r :: rest ∧ r.status ≠ .ok ∧
      s.awaitRead len base = .stop (({ s with replies := rest }.spoilRead len base).raise (mapStatus r.status))) := by
  unfold State.awaitRead
  cases h : s.replies with
  | nil => simp
  | cons r rest =>
    rcases r with ⟨st, b⟩
    cases st <;> simp [mapStatus]
    by_cases hl : b.length = len <;> simp [hl]

/-- A register read's answer. -/
theorem awaitReadMirror_cases (s : State) :
    (s.replies = [] ∧ s.awaitReadMirror = .stay) ∨
    (∃ r rest, s.replies = r :: rest ∧ r.status = .ok ∧ r.bytes.length = 1 ∧
      s.awaitReadMirror = .go { s with
        replies := rest
        rxbuf := fillBuffer s.rxbuf 0 r.bytes
        regmirror := State.rx { s with rxbuf := fillBuffer s.rxbuf 0 r.bytes } 0 }) ∨
    (∃ r rest, s.replies = r :: rest ∧ r.status = .ok ∧ r.bytes.length ≠ 1 ∧
      s.awaitReadMirror = .refuse (.readLength 1 r.bytes.length)) ∨
    (∃ r rest, s.replies = r :: rest ∧ r.status ≠ .ok ∧
      s.awaitReadMirror = .stop (({ s with replies := rest }.spoilRead 1 0).raise (mapStatus r.status))) := by
  unfold State.awaitReadMirror
  rcases awaitRead_cases s 1 0 with ⟨h, e⟩ | ⟨r, rest, h, h1, h2, e⟩ | ⟨r, rest, h, h1, h2, e⟩ | ⟨r, rest, h, h1, e⟩
  · exact .inl ⟨h, by rw [e]⟩
  · exact .inr (.inl ⟨r, rest, h, h1, h2, by rw [e]; rfl⟩)
  · exact .inr (.inr (.inl ⟨r, rest, h, h1, h2, by rw [e]⟩))
  · exact .inr (.inr (.inr ⟨r, rest, h, h1, by rw [e]⟩))

/-- A delay's return. -/
theorem awaitDelay_cases (s : State) :
    (s.delayReturns = 0 ∧ s.awaitDelay = .stay) ∨
    (∃ n, s.delayReturns = n + 1 ∧ s.awaitDelay = .go { s with delayReturns := n }) := by
  unfold State.awaitDelay
  cases h : s.delayReturns <;> simp

/-- init()'s return. -/
theorem awaitInit_cases (s : State) :
    (s.initReturns = 0 ∧ s.awaitInit = .stay) ∨
    (∃ n, s.initReturns = n + 1 ∧ s.awaitInit = .go { s with initReturns := n, inited := true }) := by
  unfold State.awaitInit
  cases h : s.initReturns <;> simp

/-- The end of a check. -/
theorem runCheck_cases (s : State) (source : CheckSource) :
    s.runCheck source = .go s.spoilCrc ∨ s.runCheck source = .stop (s.spoilCrc.raise .crcError) := by
  unfold State.runCheck checkStatus
  split <;> rename_i h <;> split at h <;> simp_all

/-- A run of a path: what holds when a path is entered and is handed on from step to step holds where the run ends. `P` speaks of a
state and the steps it has still to do, `Q` of the state in which the run ends or waits. -/
theorem State.run_induction {P : State → List Micro → Prop} {Q : State → Prop}
    (go : ∀ s m rest t, P s (m :: rest) → s.leave m = .go t → P { t with todo := rest }.enter rest)
    (stop : ∀ s m rest t, P s (m :: rest) → s.leave m = .stop t → Q t)
    (stay : ∀ s m rest, P s (m :: rest) → s.leave m = .stay → Q s)
    (ends : ∀ s, P s [] → Q s) :
    ∀ (path : List Micro) (s t : State), P s path → s.run path = .next t → Q t := by
  intro path
  induction path with
  | nil => intro s t hp hr; cases hr; exact ends s hp
  | cons m rest ih =>
    intro s t hp hr
    unfold State.run at hr
    cases hl : s.leave m with
    | go u => rw [hl] at hr; exact ih _ t (go s m rest u hp hl) hr
    | stay => rw [hl] at hr; cases hr; exact stay s m rest hp hl
    | stop u =>
      rw [hl] at hr
      exact Host.Outcome.next.inj hr ▸ stop s m rest u hp hl
    | refuse r => rw [hl] at hr; cases hr

/-- A path never faults. -/
theorem State.run_no_fault (path : List Micro) (s : State) (f : Fault) : s.run path ≠ .fault f := by
  induction path generalizing s with
  | nil => intro h; cases h
  | cons m rest ih =>
    intro h
    unfold State.run at h
    cases hl : s.leave m <;> rw [hl] at h <;> first | exact ih _ h | cases h

/-- A step that goes on leaves position, answer, response and the outside alone, makes no call, and uses answers from the front. -/
theorem leave_go {s t : State} {m : Micro} (h : s.leave m = .go t) :
    s.SameOutside t ∧ t.UsesAnswersOf s ∧ t.calls = s.calls ∧ t.rsp = s.rsp ∧ t.answer = s.answer ∧ t.todo = s.todo := by
  have refl := State.UsesAnswersOf.refl s
  cases m with
  | write stop bytes =>
    rcases awaitWrite_cases s with ⟨-, e⟩ | ⟨r, rest, h1, -, e⟩ | ⟨r, rest, h1, -, e⟩ <;> (change s.awaitWrite = _ at h; rw [e] at h; cases h)
    exact ⟨⟨rfl, rfl, rfl, rfl, rfl⟩, ⟨⟨[r], h1⟩, le_rfl, le_rfl⟩, rfl, rfl, rfl, rfl⟩
  | writeMirror =>
    rcases awaitWrite_cases s with ⟨-, e⟩ | ⟨r, rest, h1, -, e⟩ | ⟨r, rest, h1, -, e⟩ <;> (change s.awaitWrite = _ at h; rw [e] at h; cases h)
    exact ⟨⟨rfl, rfl, rfl, rfl, rfl⟩, ⟨⟨[r], h1⟩, le_rfl, le_rfl⟩, rfl, rfl, rfl, rfl⟩
  | read len base =>
    rcases awaitRead_cases s len base with ⟨-, e⟩ | ⟨r, rest, h1, -, -, e⟩ | ⟨r, rest, h1, -, -, e⟩ | ⟨r, rest, h1, -, e⟩ <;>
      (change s.awaitRead len base = _ at h; rw [e] at h; cases h)
    exact ⟨⟨rfl, rfl, rfl, rfl, rfl⟩, ⟨⟨[r], h1⟩, le_rfl, le_rfl⟩, rfl, rfl, rfl, rfl⟩
  | readMirror =>
    rcases awaitReadMirror_cases s with ⟨-, e⟩ | ⟨r, rest, h1, -, -, e⟩ | ⟨r, rest, h1, -, -, e⟩ | ⟨r, rest, h1, -, e⟩ <;>
      (change s.awaitReadMirror = _ at h; rw [e] at h; cases h)
    exact ⟨⟨rfl, rfl, rfl, rfl, rfl⟩, ⟨⟨[r], h1⟩, le_rfl, le_rfl⟩, rfl, rfl, rfl, rfl⟩
  | delay source =>
    rcases awaitDelay_cases s with ⟨-, e⟩ | ⟨n, h1, e⟩ <;> (change s.awaitDelay = _ at h; rw [e] at h; cases h)
    exact ⟨⟨rfl, rfl, rfl, rfl, rfl⟩, ⟨⟨[], rfl⟩, by simp [h1], le_rfl⟩, rfl, rfl, rfl, rfl⟩
  | init =>
    rcases awaitInit_cases s with ⟨-, e⟩ | ⟨n, h1, e⟩ <;> (change s.awaitInit = _ at h; rw [e] at h; cases h)
    exact ⟨⟨rfl, rfl, rfl, rfl, rfl⟩, ⟨⟨[], rfl⟩, le_rfl, by simp [h1]⟩, rfl, rfl, rfl, rfl⟩
  | check source =>
    rcases runCheck_cases s source with e | e <;> (change s.runCheck source = _ at h; rw [e] at h; cases h)
    exact ⟨⟨rfl, rfl, rfl, rfl, rfl⟩, refl, rfl, rfl, rfl, rfl⟩
  | defaults => cases h; exact ⟨⟨rfl, rfl, rfl, rfl, rfl⟩, refl, rfl, rfl, rfl, rfl⟩
  | times l => cases h; exact ⟨⟨rfl, rfl, rfl, rfl, rfl⟩, refl, rfl, rfl, rfl, rfl⟩
  | mode m => cases h; exact ⟨⟨rfl, rfl, rfl, rfl, rfl⟩, refl, rfl, rfl, rfl, rfl⟩
  | selectV l => cases h; exact ⟨⟨rfl, rfl, rfl, rfl, rfl⟩, refl, rfl, rfl, rfl, rfl⟩
  | merge => cases h; exact ⟨⟨rfl, rfl, rfl, rfl, rfl⟩, refl, rfl, rfl, rfl, rfl⟩

/-- A step that ends the request raises one of the three failures, CRC_ERROR only from a check, and otherwise leaves the session, the
calls and the outside alone. -/
theorem leave_stop {s t : State} {m : Micro} (h : s.leave m = .stop t) :
    s.SameOutside t ∧ t.UsesAnswersOf s ∧ t.calls = s.calls ∧ t.seq = .done ∧ t.todo = [] ∧ t.session = s.session ∧
      t.inited = s.inited ∧ t.rsp.data = none ∧ t.rsp.status ≠ .ok ∧
      (t.rsp.status = .crcError → ∃ source, m = .check source) := by
  have mapped : ∀ st : TransportStatus, st ≠ .ok → mapStatus st ≠ .ok ∧ mapStatus st ≠ .crcError := by
    intro st; cases st <;> simp [mapStatus]
  have refl := State.UsesAnswersOf.refl s
  cases m with
  | write stop bytes =>
    rcases awaitWrite_cases s with ⟨-, e⟩ | ⟨r, rest, h1, -, e⟩ | ⟨r, rest, h1, h2, e⟩ <;> (change s.awaitWrite = _ at h; rw [e] at h; cases h)
    simp [State.SameOutside, State.UsesAnswersOf, h1, mapped r.status h2]
    exact ⟨[r], rfl⟩
  | writeMirror =>
    rcases awaitWrite_cases s with ⟨-, e⟩ | ⟨r, rest, h1, -, e⟩ | ⟨r, rest, h1, h2, e⟩ <;> (change s.awaitWrite = _ at h; rw [e] at h; cases h)
    simp [State.SameOutside, State.UsesAnswersOf, h1, mapped r.status h2]
    exact ⟨[r], rfl⟩
  | read len base =>
    rcases awaitRead_cases s len base with ⟨-, e⟩ | ⟨r, rest, h1, -, -, e⟩ | ⟨r, rest, h1, -, -, e⟩ | ⟨r, rest, h1, h2, e⟩ <;>
      (change s.awaitRead len base = _ at h; rw [e] at h; cases h)
    simp [State.SameOutside, State.UsesAnswersOf, h1, mapped r.status h2]
    exact ⟨[r], rfl⟩
  | readMirror =>
    rcases awaitReadMirror_cases s with ⟨-, e⟩ | ⟨r, rest, h1, -, -, e⟩ | ⟨r, rest, h1, -, -, e⟩ | ⟨r, rest, h1, h2, e⟩ <;>
      (change s.awaitReadMirror = _ at h; rw [e] at h; cases h)
    simp [State.SameOutside, State.UsesAnswersOf, h1, mapped r.status h2]
    exact ⟨[r], rfl⟩
  | delay source => rcases awaitDelay_cases s with ⟨-, e⟩ | ⟨n, h1, e⟩ <;> (change s.awaitDelay = _ at h; rw [e] at h; cases h)
  | init => rcases awaitInit_cases s with ⟨-, e⟩ | ⟨n, h1, e⟩ <;> (change s.awaitInit = _ at h; rw [e] at h; cases h)
  | check source =>
    rcases runCheck_cases s source with e | e <;> (change s.runCheck source = _ at h; rw [e] at h; cases h)
    exact ⟨⟨rfl, rfl, rfl, rfl, rfl⟩, refl, rfl, rfl, rfl, rfl, rfl, rfl, by simp, fun _ => ⟨source, rfl⟩⟩
  | defaults => cases h
  | times l => cases h
  | mode m => cases h
  | selectV l => cases h
  | merge => cases h

/-- A step stays where the answer it waits for has not come. -/
theorem leave_stay {s : State} {m : Micro} (h : s.leave m = .stay) :
    (m.phase = .wCall ∧ s.replies = []) ∨ (m.phase = .rCall ∧ s.replies = []) ∨ (m.phase = .dCall ∧ s.delayReturns = 0) ∨
      (m.phase = .iCall ∧ s.initReturns = 0) := by
  cases m with
  | write stop bytes =>
    rcases awaitWrite_cases s with ⟨h1, e⟩ | ⟨r, rest, -, -, e⟩ | ⟨r, rest, -, -, e⟩ <;> (change s.awaitWrite = _ at h; rw [e] at h; cases h)
    exact .inl ⟨rfl, h1⟩
  | writeMirror =>
    rcases awaitWrite_cases s with ⟨h1, e⟩ | ⟨r, rest, -, -, e⟩ | ⟨r, rest, -, -, e⟩ <;> (change s.awaitWrite = _ at h; rw [e] at h; cases h)
    exact .inl ⟨rfl, h1⟩
  | read len base =>
    rcases awaitRead_cases s len base with ⟨h1, e⟩ | ⟨r, rest, -, -, -, e⟩ | ⟨r, rest, -, -, -, e⟩ | ⟨r, rest, -, -, e⟩ <;>
      (change s.awaitRead len base = _ at h; rw [e] at h; cases h)
    exact .inr (.inl ⟨rfl, h1⟩)
  | readMirror =>
    rcases awaitReadMirror_cases s with ⟨h1, e⟩ | ⟨r, rest, -, -, -, e⟩ | ⟨r, rest, -, -, -, e⟩ | ⟨r, rest, -, -, e⟩ <;>
      (change s.awaitReadMirror = _ at h; rw [e] at h; cases h)
    exact .inr (.inl ⟨rfl, h1⟩)
  | delay source =>
    rcases awaitDelay_cases s with ⟨h1, e⟩ | ⟨n, -, e⟩ <;> (change s.awaitDelay = _ at h; rw [e] at h; cases h)
    exact .inr (.inr (.inl ⟨rfl, h1⟩))
  | init =>
    rcases awaitInit_cases s with ⟨h1, e⟩ | ⟨n, -, e⟩ <;> (change s.awaitInit = _ at h; rw [e] at h; cases h)
    exact .inr (.inr (.inr ⟨rfl, h1⟩))
  | check source => rcases runCheck_cases s source with e | e <;> (change s.runCheck source = _ at h; rw [e] at h; cases h)
  | defaults => cases h
  | times l => cases h
  | mode m => cases h
  | selectV l => cases h
  | merge => cases h

/-- The phase of a step is a busy one. -/
theorem phase_busy (m : Micro) : m.phase ≠ .idle ∧ m.phase ≠ .done := by cases m <;> simp [Micro.phase]

/-- What a step that goes on does to the session. -/
theorem leave_go_session {s t : State} {m : Micro} (h : s.leave m = .go t) :
   t.session = match m with | .defaults => ⟨.poll, 50000, 16000⟩ | .times l => { s.session with temperatureConversionTimeUs := timeT l, humidityConversionTimeUs := timeH l } | .mode k => { s.session with acquisitionMode := k } | _ => s.session := by
  cases m with
  | write stop bytes =>
    rcases awaitWrite_cases s with ⟨-, e⟩ | ⟨r, rest, h1, -, e⟩ | ⟨r, rest, h1, -, e⟩ <;> (change s.awaitWrite = _ at h; rw [e] at h; cases h); rfl
  | writeMirror =>
    rcases awaitWrite_cases s with ⟨-, e⟩ | ⟨r, rest, h1, -, e⟩ | ⟨r, rest, h1, -, e⟩ <;> (change s.awaitWrite = _ at h; rw [e] at h; cases h); rfl
  | read len base =>
    rcases awaitRead_cases s len base with ⟨-, e⟩ | ⟨r, rest, h1, -, -, e⟩ | ⟨r, rest, h1, -, -, e⟩ | ⟨r, rest, h1, -, e⟩ <;>
      (change s.awaitRead len base = _ at h; rw [e] at h; cases h); rfl
  | readMirror =>
    rcases awaitReadMirror_cases s with ⟨-, e⟩ | ⟨r, rest, h1, -, -, e⟩ | ⟨r, rest, h1, -, -, e⟩ | ⟨r, rest, h1, -, e⟩ <;>
      (change s.awaitReadMirror = _ at h; rw [e] at h; cases h); rfl
  | delay source => rcases awaitDelay_cases s with ⟨-, e⟩ | ⟨n, h1, e⟩ <;> (change s.awaitDelay = _ at h; rw [e] at h; cases h); rfl
  | init => rcases awaitInit_cases s with ⟨-, e⟩ | ⟨n, h1, e⟩ <;> (change s.awaitInit = _ at h; rw [e] at h; cases h); rfl
  | check source => rcases runCheck_cases s source with e | e <;> (change s.runCheck source = _ at h; rw [e] at h; cases h); rfl
  | defaults => cases h; rfl
  | times l => cases h; rfl
  | mode m => cases h; rfl
  | selectV l => cases h; rfl
  | merge => cases h; rfl

/-- A step that goes on never takes INIT back. -/
theorem leave_go_inited {s t : State} {m : Micro} (h : s.leave m = .go t) : s.inited = true → t.inited = true := by
  intro hi
  cases m with
  | write stop bytes =>
    rcases awaitWrite_cases s with ⟨-, e⟩ | ⟨r, rest, h1, -, e⟩ | ⟨r, rest, h1, -, e⟩ <;> (change s.awaitWrite = _ at h; rw [e] at h; cases h); exact hi
  | writeMirror =>
    rcases awaitWrite_cases s with ⟨-, e⟩ | ⟨r, rest, h1, -, e⟩ | ⟨r, rest, h1, -, e⟩ <;> (change s.awaitWrite = _ at h; rw [e] at h; cases h); exact hi
  | read len base =>
    rcases awaitRead_cases s len base with ⟨-, e⟩ | ⟨r, rest, h1, -, -, e⟩ | ⟨r, rest, h1, -, -, e⟩ | ⟨r, rest, h1, -, e⟩ <;>
      (change s.awaitRead len base = _ at h; rw [e] at h; cases h); exact hi
  | readMirror =>
    rcases awaitReadMirror_cases s with ⟨-, e⟩ | ⟨r, rest, h1, -, -, e⟩ | ⟨r, rest, h1, -, -, e⟩ | ⟨r, rest, h1, -, e⟩ <;>
      (change s.awaitReadMirror = _ at h; rw [e] at h; cases h); exact hi
  | delay source => rcases awaitDelay_cases s with ⟨-, e⟩ | ⟨n, h1, e⟩ <;> (change s.awaitDelay = _ at h; rw [e] at h; cases h); exact hi
  | init => rcases awaitInit_cases s with ⟨-, e⟩ | ⟨n, h1, e⟩ <;> (change s.awaitInit = _ at h; rw [e] at h; cases h); rfl
  | check source => rcases runCheck_cases s source with e | e <;> (change s.runCheck source = _ at h; rw [e] at h; cases h); exact hi
  | defaults => cases h; exact hi
  | times l => cases h; exact hi
  | mode m => cases h; exact hi
  | selectV l => cases h; exact hi
  | merge => cases h; exact hi

end Sys2Proof.Machine
end

