-- ==== Sys2Proof/Laws/Exec.lean ====
section
/-! SUPPORT. Every meaning is its start followed by a run; where it starts; and what a run keeps. -/

namespace Sys2Proof.Machine

/-- Each instruction runs from where it starts. -/
theorem exec_eq_andRun_startOf (i : Instr) (s : State) : exec i s = andRun (startOf i s) := by
  cases i <;> rfl

/-- An instruction that answers a next state has started in some state and run from there. -/
theorem exec_next {i : Instr} {s t : State} (h : exec i s = .next t) :
    ∃ u, startOf i s = .next u ∧ u.run u.todo = .next t := by
  rw [exec_eq_andRun_startOf] at h
  cases hs : startOf i s with
  | next u => rw [hs] at h; exact ⟨u, rfl, h⟩
  | fault f => rw [hs] at h; cases h
  | refused r => rw [hs] at h; cases h

/-- A bus user starts only after INIT. -/
theorem startBus_next {s u : State} {path : List Micro} {k : Answer} (h : s.startBus path k = .next u) :
    s.inited = true ∧ u = s.start path k := by
  unfold State.startBus at h
  split at h
  · rename_i hi; cases h; exact ⟨hi, rfl⟩
  · cases h

/-- Where an instruction starts: on its path, with V set by WRITE_REGISTER alone, and only if it has booted as far as it needs. -/
theorem startOf_next {i : Instr} {s u : State} (h : startOf i s = .next u) :
    (needsInit i = true → s.inited = true) ∧
      ∃ v, u = State.start { s with vArg := v } (pathOf s.session.acquisitionMode i).1 (pathOf s.session.acquisitionMode i).2 := by
  cases i with
  | init =>
    change startInit s = _ at h
    unfold startInit at h
    split at h <;> cases h
    exact ⟨by simp [needsInit], s.vArg, rfl⟩
  | setMode m => cases h; exact ⟨by simp [needsInit], s.vArg, rfl⟩
  | crcCheck value crc => cases h; exact ⟨by simp [needsInit], s.vArg, rfl⟩
  | writeRegister v => obtain ⟨h1, rfl⟩ := startBus_next h; exact ⟨fun _ => h1, v, rfl⟩
  | _ => obtain ⟨h1, rfl⟩ := startBus_next h; exact ⟨fun _ => h1, s.vArg, rfl⟩

/-- A path is never empty. -/
theorem pathOf_ne_nil (mode : AcqMode) (i : Instr) : (pathOf mode i).1 ≠ [] := by
  cases i <;> cases mode <;> simp [pathOf, setResolutionSteps, acquireSteps, acquireCycle, readRegisterSteps, writeRegisterSteps,
    serialFirstCycle, serialSecondCycle]

/-- Starting a path leaves the session. -/
theorem State.start_session (s : State) (p k) : (s.start p k).session = s.session := by simp [State.start]

/-- Starting a path sets the position to its front. -/
theorem State.start_todo (s : State) (p k) : (s.start p k).todo = p := by simp [State.start]

end Sys2Proof.Machine
end

