-- ==== Sys2Proof/Laws/Operands.lean ====
section
/-! SUPPORT. What each read length leaves in the receive buffer (10_state.md R24), and the bytes of the two 16-bit opcodes (30_encoding.md R89). -/

namespace Sys2Proof.Machine

/-- A one-byte read. -/
theorem fillBuffer_one (v : Vector Byte 14) (b : Byte) : fillBuffer v 0 [b] = v.set 0 b := by
  ext i hi; simp [fillBuffer]; cases i <;> simp

/-- A three-byte read. -/
theorem fillBuffer_three (v : Vector Byte 14) (a b c : Byte) : fillBuffer v 0 [a,b,c] = ((v.set 0 a).set 1 b).set 2 c := by
  ext i hi; rcases i with _|_|_|i <;> simp [fillBuffer]

/-- An eight-byte read. -/
theorem fillBuffer_first8 (v : Vector Byte 14) (b : List Byte) (h : b.length = 8) : (fillBuffer v 0 b).toList = b ++ v.toList.drop 8 := by
  apply List.ext_getElem
  · simp [h]
  · intro i hi1 hi2
    simp [fillBuffer, List.getElem_append]
    split <;> simp_all
    · rw [List.getElem?_eq_getElem (by omega)]; rfl
    · rw [List.getElem?_eq_none (by omega)]; simp; try (congr 1; omega)

/-- A six-byte read. -/
theorem fillBuffer_last6 (v : Vector Byte 14) (b : List Byte) (h : b.length = 6) : (fillBuffer v 8 b).toList = v.toList.take 8 ++ b := by
  apply List.ext_getElem
  · simp [h]
  · intro i hi1 hi2
    simp [fillBuffer, List.getElem_append]
    simp [h] at hi2
    by_cases h8 : i < 8
    · simp [h8]
    · simp [h8, show 8 ≤ i by omega]
      rw [List.getElem?_eq_getElem (by omega)]; rfl

/-- Both serial-number reads. -/
theorem fillBuffer_both (v : Vector Byte 14) (a0 a1 a2 a3 a4 a5 a6 a7 e0 e1 e2 e3 e4 e5 : Byte) : fillBuffer (fillBuffer v 0 [a0,a1,a2,a3,a4,a5,a6,a7]) 8 [e0,e1,e2,e3,e4,e5] = #v[a0, a1, a2, a3, a4, a5, a6, a7, e0, e1, e2, e3, e4, e5] := by
  ext i hi; interval_cases i <;> simp [fillBuffer]

/-- 0xFA0F. -/
theorem splitOpcode_first8 : splitOpcode Opcode.readSerialFirst8 = [0xFA, 0x0F] := by decide

/-- 0xFCC9. -/
theorem splitOpcode_last6 : splitOpcode Opcode.readSerialLast6 = [0xFC, 0xC9] := by decide

end Sys2Proof.Machine
end

