-- ==== Sys2Proof/Laws/PerInstr.lean ====
section
/-! SUPPORT. For every instruction: its encoding is covered by a row of the opcode table. -/

namespace Sys2Proof.Laws.Covered

/-- The row of spec/opcode_table.json an instruction belongs to, by its mask and pattern. -/
def rowOf : Instr → Row 32 ⊕ Row 16 ⊕ Row 8
  | .init => .inl ⟨0x00000000, 0xFFFFFFFF⟩
  | .reset => .inl ⟨0x10000000, 0xFFFFFFFF⟩
  | .setMode _ => .inl ⟨0x20000000, 0xFFFFFFFE⟩
  | .setResolution _ => .inl ⟨0x30000000, 0xFFFFFFFC⟩
  | .readTemperature => .inl ⟨0x40000000, 0xFFFFFFFF⟩
  | .readHumidity => .inl ⟨0x50000000, 0xFFFFFFFF⟩
  | .readRegister => .inl ⟨0x60000000, 0xFFFFFFFF⟩
  | .writeRegister _ => .inl ⟨0x70000000, 0xFFFFFF00⟩
  | .readSerial => .inl ⟨0x80000000, 0xFFFFFFFF⟩
  | .crcCheck _ _ => .inl ⟨0x90000000, 0xFF000000⟩
  | .writeCommand _ => .inl ⟨0xA0000000, 0xFFFFFF00⟩
  | .writeCommandNoStop _ => .inl ⟨0xB0000000, 0xFFFFFF00⟩
  | .busReset => .inr (.inr ⟨0xFE, 0xFF⟩)
  | .busReadTempHold => .inr (.inr ⟨0xE3, 0xFF⟩)
  | .busReadTempPoll => .inr (.inr ⟨0xF3, 0xFF⟩)
  | .busReadHumidityHold => .inr (.inr ⟨0xE5, 0xFF⟩)
  | .busReadHumidityPoll => .inr (.inr ⟨0xF5, 0xFF⟩)
  | .busReadSerialFirst8 => .inr (.inl ⟨0xFA0F, 0xFFFF⟩)
  | .busReadSerialLast6 => .inr (.inl ⟨0xFCC9, 0xFFFF⟩)
  | .busWriteUserRegister _ => .inr (.inl ⟨0xE600, 0xFF00⟩)
  | .busReadUserRegister => .inr (.inr ⟨0xE7, 0xFF⟩)

/-- The encoding of an instruction has its row's format and its row's mask and pattern. -/
def inRow (i : Instr) : Bool :=
  match rowOf i, encode i with
  | .inl r, .request w => r.covers w
  | .inr (.inl r), .frame [hi, lo] => r.covers (hi ++ lo)
  | .inr (.inr r), .frame [b] => r.covers b
  | _, _ => false

/-- The encoding of an instruction is covered by its row. -/
def Statement (i : Instr) : Prop := inRow i = true

/-- A byte argument leaves the other bits of a request word to its code. -/
theorem byteArgument (op : BitVec 4) (pattern : BitVec 32)
    (h : ∀ c : Byte, requestWord op (c.zeroExtend 24) &&& 0xFFFFFF00 = pattern) (c : Byte) :
    (Row.mk pattern 0xFFFFFF00).covers (requestWord op (c.zeroExtend 24)) = true := by
  simp only [Row.covers, h c, beq_self_eq_true]

theorem init : Statement .init := rfl

theorem reset : Statement .reset := rfl

theorem setMode (x : AcqMode) : Statement (.setMode x) := by cases x <;> rfl

theorem setResolution (x : Level) : Statement (.setResolution x) := by cases x <;> rfl

theorem readTemperature : Statement .readTemperature := rfl

theorem readHumidity : Statement .readHumidity := rfl

theorem readRegister : Statement .readRegister := rfl

theorem writeRegister (c : Byte) : Statement (.writeRegister c) := byteArgument _ _ (by decide) c

theorem readSerial : Statement .readSerial := rfl

theorem crcCheck (value : Half) (crc : Byte) : Statement (.crcCheck value crc) := by
  simp only [Statement, inRow, rowOf, encode, Row.covers, beq_iff_eq]
  apply BitVec.eq_of_getLsbD_eq
  intro i hi
  simp only [requestWord, BitVec.getLsbD_and, BitVec.getLsbD_append]
  by_cases h : i < 24
  · have low : ∀ j : Fin 24, (0xFF000000#32).getLsbD j = false ∧ (0x90000000#32).getLsbD j = false := by decide
    have here := low ⟨i, h⟩
    simp only at here
    erw [here.1, here.2]
    simp
  · have high : ∀ j : Fin 8, (0xFF000000#32).getLsbD (24 + j) = true ∧
        (0x90000000#32).getLsbD (24 + j) = (if j.val < 4 then (0#4).getLsbD j else (9#4).getLsbD (j - 4)) := by decide
    have here := high ⟨i - 24, by omega⟩
    simp only [show 24 + (i - 24) = i by omega] at here
    erw [here.1, here.2]
    simp [h]

theorem writeCommand (c : Byte) : Statement (.writeCommand c) := byteArgument _ _ (by decide) c

theorem writeCommandNoStop (c : Byte) : Statement (.writeCommandNoStop c) := byteArgument _ _ (by decide) c

theorem busReset : Statement .busReset := rfl

theorem busReadTempHold : Statement .busReadTempHold := rfl

theorem busReadTempPoll : Statement .busReadTempPoll := rfl

theorem busReadHumidityHold : Statement .busReadHumidityHold := rfl

theorem busReadHumidityPoll : Statement .busReadHumidityPoll := rfl

theorem busReadSerialFirst8 : Statement .busReadSerialFirst8 := rfl

theorem busReadSerialLast6 : Statement .busReadSerialLast6 := rfl

theorem busWriteUserRegister (d : Byte) : Statement (.busWriteUserRegister d) := by
  have all : ∀ d : Byte, Row.covers ⟨0xE600, 0xFF00⟩ (Opcode.writeUserRegister ++ d) = true := by decide
  exact all d

theorem busReadUserRegister : Statement .busReadUserRegister := rfl

end Sys2Proof.Laws.Covered
end

