-- ==== Sys2Proof/Laws/Step.lean ====
section
/-! SUPPORT. The cases of a step, and what a step that changes nothing does when repeated. -/

namespace Sys2Proof.Machine

/-- A busy block whose phase fits its position runs the rest of its path. -/
theorem State.resume_cons {s : State} {m rest} (h : s.todo = m :: rest) (h' : m.phase = s.seq) : s.resume = s.run (m :: rest) := by
  simp [State.resume, h, h']

/-- A request that goes on to a next state has run the rest of its path, from the step the block is in. -/
theorem State.resume_next {s t : State} (h : s.resume = .next t) :
    ∃ m rest, s.todo = m :: rest ∧ m.phase = s.seq ∧ s.run (m :: rest) = .next t := by
  unfold State.resume at h
  split at h
  · cases h
  · rename_i m rest ht
    split at h
    · rename_i hm
      exact ⟨m, rest, ht, hm, ht ▸ h⟩
    · cases h

/-- A step of a busy block goes on with the request. -/
theorem step_busy {s : State} (hr : s.resetPin = false) (hb : s.busy = true) : step s = s.resume := by
  unfold step; simp only [hr]; simp [State.busy] at hb
  cases hs : s.seq <;> simp_all

/-- A phase transition of a busy block leaves one phase. -/
theorem phaseStep_busy {s : State} (hr : s.resetPin = false) (hb : s.busy = true) : phaseStep s = s.advance := by
  unfold phaseStep; simp only [hr]; simp [State.busy] at hb
  cases hs : s.seq <;> simp_all

/-- What `fetch` takes: a frame that waits, or else the next request word, or nothing. -/
theorem fetch_cases (s : State) :
    (s.fetch = none ∧ s.frames = [] ∧ s.port = []) ∨
    (∃ w rest, s.frames = [] ∧ s.port = w :: rest ∧ s.fetch = some (.request w, s.accept w rest)) ∨
    (∃ bytes rest, s.frames = bytes :: rest ∧ s.fetch = some (.frame bytes, s.takeFrame rest)) := by
  unfold State.fetch
  cases hf : s.frames with
  | cons bytes rest => exact .inr (.inr ⟨bytes, rest, rfl, rfl⟩)
  | nil =>
    cases hp : s.port with
    | nil => exact .inl ⟨rfl, rfl, rfl⟩
    | cons w rest => exact .inr (.inl ⟨w, rest, rfl, rfl, rfl⟩)

/-- Every step is a hardware reset, a wait, a packet taken, a response taken, or a request that goes on. -/
theorem step_cases (s : State) :
    (s.resetPin = true ∧ step s = .next s.hardwareReset) ∨
    (s.resetPin = false ∧ s.seq = .idle ∧ s.fetch = none ∧ step s = .next s) ∨
    (s.resetPin = false ∧ s.seq = .idle ∧ ∃ p t, s.fetch = some (p, t) ∧
      ((∃ i, decode p = .ok i ∧ step s = exec i t) ∨ ∃ e, decode p = .error e ∧ step s = .refused (.malformed e))) ∨
    (s.resetPin = false ∧ s.seq = .done ∧ step s = .next s.takeResponse) ∨
    (s.resetPin = false ∧ s.busy = true ∧ step s = s.resume) := by
  unfold step
  cases hr : s.resetPin with
  | true => simp
  | false =>
    cases hs : s.seq <;> simp [State.busy, hs]
    cases hf : s.fetch with
    | none => simp
    | some q =>
      obtain ⟨p, t⟩ := q
      cases hd : decode p with
      | ok i => exact .inr ⟨p, t, rfl, .inl ⟨i, hd, by simp [hd]⟩⟩
      | error e => exact .inr ⟨p, t, rfl, .inr ⟨e, hd, by simp [hd]⟩⟩

/-- A machine whose step leaves a state as it is stays in it for any number of steps. -/
theorem run_of_stutter (M : Host.Core) (s : M.State) (h : M.step s = .next s) (n : Nat) : M.run n s = .next s := by
  induction n with
  | zero => rfl
  | succ n ih => simp [Host.Core.run, h, ih]

end Sys2Proof.Machine
end

