-- ==== Sys2Proof/Tests/Slice0.lean ====
section
/-! SUPPORT. Tests. Words are written out from 30_encoding.md R80, R81, R87; expected calls, responses and sessions are those of spec/95_test_vectors.md, whose section each test names. At the end, one witness for the hypotheses of each statement. -/

namespace Sys2Proof.Tests

open Sys2Proof Sys2Proof.Machine

set_option maxRecDepth 16000

/-! ### Small states -/

/-- A block after INIT, with answers ready and two delays that return. -/
def ready (answers : List Reply) : State := { State.reset with inited := true, replies := answers, delayReturns := 2 }

/-- The same with a session. -/
def readyIn (session : Session) (answers : List Reply) : State := { ready answers with session := session }

/-- The same with a request word on the port. -/
def asked (w : RequestWord) (s : State) : State := { s with port := [w] }

/-- The same with a bus frame to be run by itself. -/
def framed (bytes : List Byte) (s : State) : State := { s with frames := [bytes] }

/-- What the other agents see of a step, with the session and the phase. -/
def seen : Outcome → Option (List Call × Status × Option (BitVec 64) × Session × Phase)
  | .next t => some (t.calls, t.rsp.status, t.rsp.data, t.session, t.seq)
  | .fault _ => none
  | .refused _ => none

/-- The name of a refusal. -/
def refusal : Outcome → Option Refusal
  | .refused r => some r
  | .next _ => none
  | .fault _ => none

/-- Why a packet is turned away. -/
def rejected (p : Packet) : Option Reject :=
  match decode p with
  | .ok _ => none
  | .error e => some e

def poll0 : Session := ⟨.poll, 50000, 16000⟩
def hold0 : Session := ⟨.hold, 50000, 16000⟩
def good : Reply := ⟨.ok, []⟩
def nack : Reply := ⟨.bufferOverflow, []⟩
def late : Reply := ⟨.timeout, []⟩
def bytes (b : List Byte) : Reply := ⟨.ok, b⟩

/-! ### Well-formedness: one ill-formed packet for each check, refused by `wf` and named by the decoder (30_encoding.md R82, R95) -/

theorem test_wf_reserved_codes :
    [0xC0000000, 0xD0000000, 0xE0000000, 0xF0000000].all (fun w => !(Packet.request w).wf) = true := by decide

theorem test_reject_reserved_code : rejected (.request 0xC0000000) = some (.reservedOp 0xC) := by decide

theorem test_wf_bits_27_24 : (Packet.request 0x91683A7C).wf = false := by decide

theorem test_reject_bits_27_24 : rejected (.request 0x91683A7C) = some (.reservedBits 1) := by decide

/-- Sections 2.2 and 2.4, and for each other request with an unused bit the lowest one. -/
theorem test_wf_unused_argument :
    [0xA00001FE, 0x30000004, 0x00000001, 0x10000001, 0x20000002, 0x40000001, 0x50000001, 0x60000001, 0x70000100, 0x80000001,
      0xB0000100].all (fun w => !(Packet.request w).wf && (rejected (.request w)).isSome) = true := by decide

theorem test_reject_unused_argument : rejected (.request 0xA00001FE) = some (.unusedArgument 0xA 0x0001FE) := by decide

theorem test_wf_frames :
    ∀ b ∈ [[], [0x00], [0xE6], [0xFA], [0xFA, 0x10], [0xFC, 0x0F], [0xE7, 0x00], [0xE6, 0x00, 0x00]],
      (Packet.frame b).wf = false ∧ rejected (.frame b) = some (.unknownFrame b) := by decide

/-- No two rows of one width overlap (30_encoding.md R97 and the opening). -/
theorem test_rows_do_not_overlap :
    requestRows.Pairwise (fun a b => (a.pattern ^^^ b.pattern) &&& a.mask &&& b.mask ≠ 0) ∧
    frameRows8.Pairwise (fun a b => (a.pattern ^^^ b.pattern) &&& a.mask &&& b.mask ≠ 0) ∧
    frameRows16.Pairwise (fun a b => (a.pattern ^^^ b.pattern) &&& a.mask &&& b.mask ≠ 0) := by decide

/-! ### Decoding: a word of every row, written out bit by bit -/

theorem test_decode_system :
    decodeTableWord 32 0b0000_0000_000000000000000000000000 = some .init ∧
    decodeTableWord 32 0b0001_0000_000000000000000000000000 = some .reset ∧
    decodeTableWord 32 0b0010_0000_000000000000000000000000 = some (.setMode .hold) ∧
    decodeTableWord 32 0b0010_0000_000000000000000000000001 = some (.setMode .poll) := by decide

theorem test_decode_resolution :
    decodeTableWord 32 0b0011_0000_000000000000000000000000 = some (.setResolution .L0) ∧
    decodeTableWord 32 0b0011_0000_000000000000000000000001 = some (.setResolution .L1) ∧
    decodeTableWord 32 0b0011_0000_000000000000000000000010 = some (.setResolution .L2) ∧
    decodeTableWord 32 0b0011_0000_000000000000000000000011 = some (.setResolution .L3) := by decide

theorem test_decode_reads :
    decodeTableWord 32 0b0100_0000_000000000000000000000000 = some .readTemperature ∧
    decodeTableWord 32 0b0101_0000_000000000000000000000000 = some .readHumidity ∧
    decodeTableWord 32 0b0110_0000_000000000000000000000000 = some .readRegister ∧
    decodeTableWord 32 0b1000_0000_000000000000000000000000 = some .readSerial := by decide

theorem test_decode_with_arguments :
    decodeTableWord 32 0b0111_0000_000000000000000010000100 = some (.writeRegister 0x84) ∧
    decodeTableWord 32 0b1001_0000_0110100000111010_01111100 = some (.crcCheck 0x683A 0x7C) ∧
    decodeTableWord 32 0b1010_0000_000000000000000011111110 = some (.writeCommand 0xFE) ∧
    decodeTableWord 32 0b1011_0000_000000000000000011100011 = some (.writeCommandNoStop 0xE3) := by decide

theorem test_decode_frames :
    decodeTableWord 8 0b11111110 = some .busReset ∧
    decodeTableWord 8 0b11100011 = some .busReadTempHold ∧
    decodeTableWord 8 0b11110011 = some .busReadTempPoll ∧
    decodeTableWord 8 0b11100101 = some .busReadHumidityHold ∧
    decodeTableWord 8 0b11110101 = some .busReadHumidityPoll ∧
    decodeTableWord 8 0b11100111 = some .busReadUserRegister ∧
    decodeTableWord 16 0b1111101000001111 = some .busReadSerialFirst8 ∧
    decodeTableWord 16 0b1111110011001001 = some .busReadSerialLast6 ∧
    decodeTableWord 16 0b1110011010111011 = some (.busWriteUserRegister 0xBB) := by decide

/-! ### The CRC-8 validator: section 2.1 -/

theorem test_crc_values :
    crc8 0x0000 = 0x00 ∧ crc8 0x0001 = 0x31 ∧ crc8 0x8000 = 0x23 ∧ crc8 0x0131 = 0x00 ∧ crc8 0xFFFF = 0x2D ∧
    crc8 0x00DC = 0x79 ∧ crc8 0x683A = 0x7C ∧ crc8 0x4E85 = 0x6B ∧ crc8 0xBEEF = 0x13 := by decide

/-- The trace for 0x683A: after iterations 2, 6 and 11, and the three shifted registers at the end. -/
theorem test_crc_trace :
    (CrcRegs.iterateN 2 (CrcRegs.load 0x683A)).result = 0x247A00 ∧
    (CrcRegs.iterateN 7 (CrcRegs.load 0x683A)).result = 0x003800 ∧
    (CrcRegs.iterateN 12 (CrcRegs.load 0x683A)).result = 0x000D30 ∧
    CrcRegs.iterateN 16 (CrcRegs.load 0x683A) = ⟨0x00007C, 0x000080, 0x0000FF, 0x000098⟩ := by decide

theorem test_crc_check_good :
    seen (step (asked 0x90683A7C State.reset)) = some ([], .ok, none, poll0, .done) := by decide

theorem test_crc_check_bad :
    seen (step (asked 0x904E846B State.reset)) = some ([], .crcError, none, poll0, .done) := by decide

/-! ### The bus command layer: section 2.2 -/

theorem test_write_command :
    seen (step (asked 0xA0000000 (ready [good]))) = some ([.writeWait 0x40 [0x00]], .ok, none, poll0, .done) := by decide

theorem test_write_command_timeout :
    seen (step (asked 0xA00000F3 (ready [late]))) = some ([.writeWait 0x40 [0xF3]], .transferError, none, poll0, .done) := by
  decide

theorem test_write_command_no_stop :
    seen (step (asked 0xB00000E3 (ready [nack]))) =
      some ([.writeWaitNoStop 0x40 [0xE3]], .noAcknowledge, none, poll0, .done) := by decide

theorem test_write_command_no_stop_other :
    seen (step (asked 0xB00000E5 (ready [⟨.other, []⟩]))) =
      some ([.writeWaitNoStop 0x40 [0xE5]], .transferError, none, poll0, .done) := by decide

/-! ### The register manager: section 2.3 -/

theorem test_merge :
    mergeRegister 0x00 0xFF = 0x87 ∧ mergeRegister 0xFF 0x00 = 0x78 ∧ mergeRegister 0x3A 0x81 = 0xB9 ∧
    mergeRegister 0x42 0x04 = 0x44 ∧ mergeRegister 0x02 0x80 = 0x80 ∧ mergeRegister 0xC7 0x38 = 0x40 := by decide

theorem test_read_register :
    seen (step (asked 0x60000000 (ready [good, bytes [0x02]]))) =
      some ([.writeWait 0x40 [0xE7], .readWait 0x40 1], .ok, some 0x02, poll0, .done) := by decide

theorem test_read_register_nack :
    seen (step (asked 0x60000000 (ready [nack]))) = some ([.writeWait 0x40 [0xE7]], .noAcknowledge, none, poll0, .done) := by
  decide

theorem test_write_register :
    seen (step (asked 0x700000FF (ready [good, bytes [0x3A], good]))) =
      some ([.writeWait 0x40 [0xE7], .readWait 0x40 1, .writeWait 0x40 [0xE6, 0xBF]], .ok, none, poll0, .done) := by decide

theorem test_write_register_failed_read :
    seen (step (asked 0x70000004 (ready [good, nack]))) =
      some ([.writeWait 0x40 [0xE7], .readWait 0x40 1], .noAcknowledge, none, poll0, .done) := by decide

/-! ### Resolution: section 2.4 -/

theorem test_set_resolution :
    seen (step (asked 0x30000002 (ready [good, bytes [0x3A], good, bytes [0x7A], good]))) =
      some ([.writeWait 0x40 [0xE7], .readWait 0x40 1, .writeWait 0x40 [0xE7], .readWait 0x40 1,
        .writeWait 0x40 [0xE6, 0x7B]], .ok, none, ⟨.poll, 13000, 3000⟩, .done) := by decide

theorem test_set_resolution_fails_half_way :
    seen (step (asked 0x30000001 (ready [good, bytes [0x3A], nack]))) =
      some ([.writeWait 0x40 [0xE7], .readWait 0x40 1, .writeWait 0x40 [0xE7]], .noAcknowledge, none,
        ⟨.poll, 25000, 5000⟩, .done) := by decide

/-! ### Measurements: section 2.5 -/

theorem test_temperature_poll :
    seen (step (asked 0x40000000 (ready [good, bytes [0x68, 0x3A, 0x7C]]))) =
      some ([.writeWait 0x40 [0xF3], .delay 50, .readWait 0x40 3], .ok, some 0x683A, poll0, .done) := by decide

theorem test_temperature_status_wins :
    seen (step (asked 0x40000000 (ready [good, ⟨.bufferOverflow, [0x68, 0x3A, 0x00]⟩]))) =
      some ([.writeWait 0x40 [0xF3], .delay 50, .readWait 0x40 3], .noAcknowledge, none, poll0, .done) := by decide

theorem test_humidity_poll_lowest :
    seen (step (asked 0x50000000 (readyIn ⟨.poll, 7000, 8000⟩ [good, bytes [0x7C, 0x82, 0x97]]))) =
      some ([.writeWait 0x40 [0xF5], .delay 8, .readWait 0x40 3], .ok, some 0x7C82, ⟨.poll, 7000, 8000⟩, .done) := by decide

theorem test_humidity_hold_bad_checksum :
    seen (step (asked 0x50000000 (readyIn hold0 [good, bytes [0x4E, 0x85, 0x6A]]))) =
      some ([.writeWaitNoStop 0x40 [0xE5], .readWait 0x40 3], .crcError, none, hold0, .done) := by decide

/-- The last row of section 2.5: the transport never answers the read. -/
theorem test_temperature_hangs :
    (match step (asked 0x40000000 (readyIn hold0 [good])) with
      | .next t => (t.calls, t.seq, t.waits, t.responses) ==
          ([.writeWaitNoStop 0x40 [0xE3], .readWait 0x40 3], .rCall, true, [])
      | _ => false) = true := by decide

/-! ### The serial number: section 2.6 -/

def serialCalls : List Call :=
  [.writeWaitNoStop 0x40 [0xFA, 0x0F], .readWait 0x40 8, .writeWaitNoStop 0x40 [0xFC, 0xC9], .readWait 0x40 6]

theorem test_serial :
    seen (step (asked 0x80000000 (ready
        [good, bytes [0x11, 0x72, 0x22, 0xE4, 0x33, 0x96, 0x44, 0xF9], good, bytes [0x55, 0x66, 0x8D, 0x77, 0x88, 0x56]]))) =
      some (serialCalls, .ok, some 0x1122334455667788, poll0, .done) := by decide

/-- A bad first pair and a fourth call that fails: the transport failure wins. -/
theorem test_serial_transport_outranks_check :
    seen (step (asked 0x80000000 (ready
        [good, bytes [0x11, 0x73, 0x22, 0xE4, 0x33, 0x96, 0x44, 0xF9], good, late]))) =
      some (serialCalls, .transferError, none, poll0, .done) := by decide

/-! ### System operations: section 2.7 -/

theorem test_init :
    seen (step (asked 0x00000000 { State.reset with initReturns := 1 })) = some ([.init], .ok, none, poll0, .done) := by decide

theorem test_init_twice : refusal (step (asked 0x00000000 (ready []))) = some .secondInit := by decide

theorem test_reset :
    seen (step (asked 0x10000000 (readyIn ⟨.hold, 13000, 3000⟩ [good]))) =
      some ([.writeWait 0x40 [0xFE], .delay 15], .ok, none, hold0, .done) := by decide

theorem test_reset_fails :
    seen (step (asked 0x10000000 (readyIn ⟨.poll, 7000, 8000⟩ [late]))) =
      some ([.writeWait 0x40 [0xFE]], .transferError, none, ⟨.poll, 7000, 8000⟩, .done) := by decide

theorem test_set_mode :
    seen (step (asked 0x20000000 (readyIn ⟨.poll, 13000, 3000⟩ []))) = some ([], .ok, none, ⟨.hold, 13000, 3000⟩, .done) := by
  decide

theorem test_not_initialised : refusal (step (asked 0x40000000 State.reset)) = some .notInitialised := by decide

/-! ### Bus frames: the rows of 30_encoding.md R87 -/

theorem test_frame_reset :
    seen (step (framed [0xFE] (ready [good]))) = some ([.writeWait 0x40 [0xFE], .delay 15], .ok, none, poll0, .done) := by decide

theorem test_frame_temp_hold :
    seen (step (framed [0xE3] (ready [good, bytes [1, 2, 3]]))) =
      some ([.writeWaitNoStop 0x40 [0xE3], .readWait 0x40 3], .ok, none, poll0, .done) := by decide

theorem test_frame_temp_poll :
    seen (step (framed [0xF3] (ready [good, bytes [1, 2, 3]]))) =
      some ([.writeWait 0x40 [0xF3], .delay 50, .readWait 0x40 3], .ok, none, poll0, .done) := by decide

theorem test_frame_humidity_hold :
    seen (step (framed [0xE5] (ready [good, bytes [1, 2, 3]]))) =
      some ([.writeWaitNoStop 0x40 [0xE5], .readWait 0x40 3], .ok, none, poll0, .done) := by decide

theorem test_frame_humidity_poll :
    seen (step (framed [0xF5] (ready [good, bytes [1, 2, 3]]))) =
      some ([.writeWait 0x40 [0xF5], .delay 16, .readWait 0x40 3], .ok, none, poll0, .done) := by decide

theorem test_frame_serial_first8 :
    seen (step (framed [0xFA, 0x0F] (ready [good, bytes [1, 2, 3, 4, 5, 6, 7, 8]]))) =
      some ([.writeWaitNoStop 0x40 [0xFA, 0x0F], .readWait 0x40 8], .ok, none, poll0, .done) := by decide

theorem test_frame_serial_last6 :
    seen (step (framed [0xFC, 0xC9] (ready [good, bytes [1, 2, 3, 4, 5, 6]]))) =
      some ([.writeWaitNoStop 0x40 [0xFC, 0xC9], .readWait 0x40 6], .ok, none, poll0, .done) := by decide

theorem test_frame_write_user_register :
    seen (step (framed [0xE6, 0xBB] (ready [good]))) = some ([.writeWait 0x40 [0xE6, 0xBB]], .ok, none, poll0, .done) := by decide

theorem test_frame_read_user_register :
    seen (step (framed [0xE7] (ready [good, bytes [0x3A]]))) =
      some ([.writeWait 0x40 [0xE7], .readWait 0x40 1], .ok, none, poll0, .done) := by decide

/-! ### The host's word placement: the very next step runs the word -/

theorem test_withFetchWord_request :
    (match step (State.reset.withFetchWord 32 0x60000000) with
      | .next t => (t.calls, t.seq, t.req) == ([.writeWait 0x40 [0xE7]], .wCall, ⟨0x6, 0⟩)
      | _ => false) = true := by decide

theorem test_withFetchWord_frame :
    (match step (State.reset.withFetchWord 16 0xE6BB) with
      | .next t => (t.calls, t.seq) == ([.writeWait 0x40 [0xE6, 0xBB]], .wCall)
      | _ => false) = true := by decide

/-! ### The annex: section 2.8 -/

theorem test_converter :
    temperatureC 0x683A = 20227493 / 819200 ∧ humidityRH 0x4E85 = 2119409 / 65536 ∧
    compensatedRH (humidityRH 0x7C80) (temperatureC 0x7C80) = 5683215234375 / 100000000000 := by
  norm_num [temperatureC, humidityRH, compensatedRH]

/-! ### Witnesses: concrete states and operands that meet all hypotheses of a statement together, clause by clause -/

/-- A block that waits in `W_CALL` for the answer to the command of READ_REGISTER. -/
def waiting (answers : List Reply) : State :=
  { ready answers with seq := .wCall, todo := readRegisterSteps, answer := .registerByte, calls := [.writeWait 0x40 [0xE7]] }

/-- A block that waits in `R_CALL` for the byte of the user register. -/
def waitingRead (answers : List Reply) : State :=
  { ready answers with seq := .rCall, todo := [.readMirror], answer := .registerByte,
                       calls := [.writeWait 0x40 [0xE7], .readWait 0x40 1] }

def batch8 : List Byte := [0x11, 0x72, 0x22, 0xE4, 0x33, 0x96, 0x44, 0xF9]
def batch6 : List Byte := [0x55, 0x66, 0x8D, 0x77, 0x88, 0x56]

theorem test_witness_encoding :
    (Instr.crcCheck 0xFFFF 0xFF).wf = true ∧ decode (.request 0x90FFFFFF) = .ok (.crcCheck 0xFFFF 0xFF) ∧
    (Packet.frame [0xE6, 0xFF]).wf = true := ⟨rfl, rfl, rfl⟩

theorem test_witness_step_runs_the_decoded_instruction :
    let s := asked 0x60000000 (ready [])
    let f := framed [0xE7] (ready [])
    s.resetPin = false ∧ s.seq = .idle ∧ s.frames = [] ∧ s.port = [0x60000000] ∧
      decode (.request 0x60000000) = .ok .readRegister ∧ Instr.readRegister.wf = true ∧
    f.resetPin = false ∧ f.seq = .idle ∧ f.frames = [[0xE7]] ∧
      decode (.frame [0xE7]) = .ok .busReadUserRegister ∧ Instr.busReadUserRegister.wf = true :=
  ⟨rfl, rfl, rfl, rfl, rfl, rfl, rfl, rfl, rfl, rfl, rfl⟩

theorem test_witness_malformed :
    let s := asked 0xA00001FE (ready [])
    let f := framed [0xFA, 0x10] (ready [])
    s.resetPin = false ∧ s.seq = .idle ∧ s.frames = [] ∧ s.port = [0xA00001FE] ∧ (Packet.request 0xA00001FE).wf = false ∧
    f.resetPin = false ∧ f.seq = .idle ∧ f.frames = [[0xFA, 0x10]] ∧ (Packet.frame [0xFA, 0x10]).wf = false :=
  ⟨rfl, rfl, rfl, rfl, rfl, rfl, rfl, rfl, rfl⟩

theorem test_witness_idle :
    State.reset.resetPin = false ∧ State.reset.seq = .idle ∧ State.reset.port = [] ∧ State.reset.frames = [] :=
  ⟨rfl, rfl, rfl, rfl⟩

theorem test_witness_busy :
    (waiting [good]).resetPin = false ∧ (waiting [good]).seq ≠ .idle ∧ ∃ t, step (waiting [good]) = .next t :=
  ⟨rfl, by decide, _, rfl⟩

theorem test_witness_done :
    let s : State := { State.reset with seq := .done }
    s.resetPin = false ∧ s.seq = .done := ⟨rfl, rfl⟩

theorem test_witness_unanswered :
    (waiting []).PositionFits ∧ (waiting []).resetPin = false ∧ (waiting []).waits = true := ⟨⟨_, _, rfl, rfl⟩, rfl, rfl⟩

theorem test_witness_hardware_reset :
    let s : State := { waiting [] with resetPin := true }
    s.resetPin = true := rfl

/-- Both ends of the iteration count, and both branches of an iteration (section 2.1, the trace of 0x683A). -/
theorem test_witness_iteration :
    (CrcRegs.load 0x683A).result &&& (CrcRegs.load 0x683A).msb = 0 ∧
    (CrcRegs.iterateN 1 (CrcRegs.load 0x683A)).result &&& (CrcRegs.iterateN 1 (CrcRegs.load 0x683A)).msb ≠ 0 ∧
    (CrcRegs.iterateN 15 (CrcRegs.load 0x00DC)).result &&& (CrcRegs.iterateN 15 (CrcRegs.load 0x00DC)).msb ≠ 0 := by decide

/-- Bits 0 and 15 of a value, bits 0 and 7 of a checksum. -/
theorem test_witness_flips :
    crc8 (0x683A ^^^ (1#16 <<< 0)) = 0x4D ∧ crc8 (0x683A ^^^ (1#16 <<< 15)) = 0x5F ∧
    (0x7C ^^^ (1#8 <<< 0) : Byte) = 0x7D ∧ (0x7C ^^^ (1#8 <<< 7) : Byte) = 0xFC := by decide

theorem test_witness_write_command : (ready [nack]).inited = true ∧ (ready [nack]).replies = nack :: [] := ⟨rfl, rfl⟩

theorem test_witness_failed_call :
    ((waiting [late]).PositionFits ∧ (waiting [late]).resetPin = false ∧ (waiting [late]).seq = .wCall ∧
      (waiting [late]).replies = late :: [] ∧ late.status ≠ .ok) ∧
    ((waitingRead [nack]).PositionFits ∧ (waitingRead [nack]).resetPin = false ∧ (waitingRead [nack]).seq = .rCall ∧
      (waitingRead [nack]).replies = nack :: [] ∧ nack.status ≠ .ok) :=
  ⟨⟨⟨_, _, rfl, rfl⟩, rfl, rfl, rfl, by decide⟩, ⟨⟨_, _, rfl, rfl⟩, rfl, rfl, rfl, by decide⟩⟩

/-- Two requests that have failed, one by its transport and one by its check. -/
theorem test_witness_failed_request :
    (∃ t, exec .readRegister (ready [nack]) = .next t ∧ t.seq = .done ∧ t.rsp.status ≠ .ok) ∧
    (∃ t, exec (.crcCheck 0x4E84 0x6B) (ready []) = .next t ∧ t.seq = .done ∧ t.rsp.status ≠ .ok) :=
  ⟨⟨_, rfl, rfl, by decide⟩, ⟨_, rfl, rfl, by decide⟩⟩

theorem test_witness_registers :
    let s := ready [good, bytes [0x3A], good]
    s.inited = true ∧ s.replies = ⟨.ok, []⟩ :: ⟨.ok, [0x3A]⟩ :: good :: [] := ⟨rfl, rfl⟩

theorem test_witness_register_failures :
    TransportStatus.timeout ≠ .ok ∧
    ((ready [late]).inited = true ∧ (ready [late]).replies = ⟨.timeout, []⟩ :: []) ∧
    ((ready [good, late]).inited = true ∧ (ready [good, late]).replies = ⟨.ok, []⟩ :: ⟨.timeout, []⟩ :: []) :=
  ⟨by decide, ⟨rfl, rfl⟩, ⟨rfl, rfl⟩⟩

theorem test_witness_resolution :
    let s := ready [good, bytes [0x06], good, bytes [0x78], good]
    s.inited = true ∧ s.replies = ⟨.ok, []⟩ :: ⟨.ok, [0x06]⟩ :: ⟨.ok, []⟩ :: ⟨.ok, [0x78]⟩ :: good :: [] ∧
    (∃ t, exec (.setResolution .L1) s = .next t) ∧ ∃ t, exec (.setResolution .L3) (ready []) = .next t ∧ t.waits = true :=
  ⟨rfl, rfl, ⟨_, rfl⟩, ⟨_, rfl, rfl⟩⟩

theorem test_witness_resolution_failures :
    TransportStatus.bufferOverflow ≠ .ok ∧ (ready [nack]).inited = true ∧
    (ready [nack]).replies = [] ++ ⟨.bufferOverflow, []⟩ :: [] ∧
    (ready [good, nack]).replies = [⟨.ok, []⟩] ++ ⟨.bufferOverflow, []⟩ :: [] ∧
    (ready [good, bytes [0x3A], nack]).replies = [⟨.ok, []⟩, ⟨.ok, [0x3A]⟩] ++ ⟨.bufferOverflow, []⟩ :: [] ∧
    (ready [good, bytes [0x3A], good, nack]).replies =
      [⟨.ok, []⟩, ⟨.ok, [0x3A]⟩, ⟨.ok, []⟩] ++ ⟨.bufferOverflow, []⟩ :: [] :=
  ⟨by decide, rfl, rfl, rfl, rfl, rfl⟩

theorem test_witness_measurements :
    let h := readyIn hold0 [good, bytes [0x4E, 0x85, 0x6B]]
    let p := readyIn poll0 [good, bytes [0x4E, 0x85, 0x6B]]
    (h.inited = true ∧ h.session.acquisitionMode = .hold ∧ h.replies = ⟨.ok, []⟩ :: ⟨.ok, [0x4E, 0x85, 0x6B]⟩ :: []) ∧
    (p.inited = true ∧ p.session.acquisitionMode = .poll ∧ p.delayReturns = 1 + 1 ∧
      p.replies = ⟨.ok, []⟩ :: ⟨.ok, [0x4E, 0x85, 0x6B]⟩ :: []) ∧
    crc8 ((0x4E : Byte) ++ (0x85 : Byte)) = 0x6B ∧ crc8 ((0x4E : Byte) ++ (0x85 : Byte)) ≠ 0x6A :=
  ⟨⟨rfl, rfl, rfl⟩, ⟨rfl, rfl, rfl, rfl⟩, by decide, by decide⟩

/-- No delay returns in the first two. -/
theorem test_witness_measurement_failures :
    let c : State := { readyIn poll0 [nack] with delayReturns := 0 }
    let h : State := { readyIn hold0 [good, nack] with delayReturns := 0 }
    let p := readyIn poll0 [good, nack]
    TransportStatus.bufferOverflow ≠ .ok ∧
    (c.inited = true ∧ c.replies = ⟨.bufferOverflow, []⟩ :: []) ∧
    (h.inited = true ∧ h.session.acquisitionMode = .hold ∧ h.replies = ⟨.ok, []⟩ :: ⟨.bufferOverflow, []⟩ :: []) ∧
    (p.inited = true ∧ p.session.acquisitionMode = .poll ∧ p.delayReturns = 1 + 1 ∧
      p.replies = ⟨.ok, []⟩ :: ⟨.bufferOverflow, []⟩ :: []) :=
  ⟨by decide, ⟨rfl, rfl⟩, ⟨rfl, rfl, rfl⟩, ⟨rfl, rfl, rfl, rfl⟩⟩

/-- Each length, too short and too long, in a first read and in a second, in both modes. -/
theorem test_witness_read_length :
    let s := readyIn hold0 [good, bytes [1, 2]]
    let e := readyIn poll0 [good, bytes []]
    (s.inited = true ∧ s.session.acquisitionMode = .hold ∧ s.replies = ⟨.ok, []⟩ :: ⟨.ok, [1, 2]⟩ :: []) ∧
    (e.inited = true ∧ e.session.acquisitionMode = .poll ∧ e.delayReturns = 1 + 1 ∧
      e.replies = ⟨.ok, []⟩ :: ⟨.ok, []⟩ :: []) ∧
    ([1, 2] : List Byte).length ∉ [1, 3, 8, 6] ∧ ([] : List Byte).length ∉ [1, 3, 8, 6] ∧
    ((ready [good, bytes batch8, good, bytes [1, 2]]).replies = ⟨.ok, []⟩ :: ⟨.ok, batch8⟩ :: ⟨.ok, []⟩ :: ⟨.ok, [1, 2]⟩ :: [] ∧
      batch8.length = 8) ∧
    (ready [good, bytes [0x3A], good, bytes []]).replies = ⟨.ok, []⟩ :: ⟨.ok, [0x3A]⟩ :: ⟨.ok, []⟩ :: ⟨.ok, []⟩ :: [] :=
  ⟨⟨rfl, rfl, rfl⟩, ⟨rfl, rfl, rfl, rfl⟩, by decide, by decide, ⟨rfl, rfl⟩, rfl⟩

theorem test_witness_serial :
    let s := ready [good, bytes batch8, good, bytes batch6]
    s.inited = true ∧
    s.replies = ⟨.ok, []⟩ :: ⟨.ok, [0x11, 0x72, 0x22, 0xE4, 0x33, 0x96, 0x44, 0xF9]⟩ :: ⟨.ok, []⟩ ::
      ⟨.ok, [0x55, 0x66, 0x8D, 0x77, 0x88, 0x56]⟩ :: [] ∧
    crc8 ((0x11 : Byte).zeroExtend 16) = 0x72 ∧ crc8 ((0x77 : Byte) ++ (0x88 : Byte)) = 0x56 := ⟨rfl, rfl, by decide, by decide⟩

theorem test_witness_serial_failures :
    batch8.length = 8 ∧ TransportStatus.other ≠ .ok ∧ (ready [⟨.other, []⟩]).inited = true ∧
    (ready [⟨.other, []⟩]).replies = [] ++ ⟨.other, []⟩ :: [] ∧
    (ready [good, ⟨.other, []⟩]).replies = [⟨.ok, []⟩] ++ ⟨.other, []⟩ :: [] ∧
    (ready [good, bytes batch8, ⟨.other, []⟩]).replies = [⟨.ok, []⟩, ⟨.ok, batch8⟩] ++ ⟨.other, []⟩ :: [] ∧
    (ready [good, bytes batch8, good, ⟨.other, []⟩]).replies =
      [⟨.ok, []⟩, ⟨.ok, batch8⟩, ⟨.ok, []⟩] ++ ⟨.other, []⟩ :: [] :=
  ⟨rfl, by decide, rfl, rfl, rfl, rfl, rfl⟩

theorem test_witness_init :
    let s : State := { State.reset with initReturns := 1 }
    s.inited = false ∧ s.initReturns = 0 + 1 := ⟨rfl, rfl⟩

theorem test_witness_reset :
    ((ready [good]).inited = true ∧ (ready [good]).replies = good :: [] ∧ good.status = .ok ∧
      (ready [good]).delayReturns = 1 + 1) ∧
    ((ready [nack]).inited = true ∧ (ready [nack]).replies = nack :: [] ∧ nack.status ≠ .ok) :=
  ⟨⟨rfl, rfl, rfl, rfl⟩, ⟨rfl, rfl, by decide⟩⟩

theorem test_witness_boot_order :
    (needsInit .busReset = true ∧ State.reset.inited = false) ∧ (ready []).inited = true ∧
    ((Instr.init = .init → State.reset.inited = false) ∧ (needsInit .init = true → State.reset.inited = true)) ∧
    ((Instr.reset = .init → (ready []).inited = false) ∧ (needsInit .reset = true → (ready []).inited = true)) :=
  ⟨⟨rfl, rfl⟩, rfl, ⟨fun _ => rfl, by decide⟩, ⟨by decide, fun _ => rfl⟩⟩

theorem test_witness_frames :
    let m := ready [good, bytes [0x68, 0x3A, 0x7C]]
    (m.inited = true ∧ m.delayReturns = 1 + 1 ∧ m.replies = ⟨.ok, []⟩ :: ⟨.ok, [0x68, 0x3A, 0x7C]⟩ :: []) ∧
    (batch8.length = 8 ∧ (ready [good, bytes batch8]).replies = ⟨.ok, []⟩ :: ⟨.ok, batch8⟩ :: []) ∧
    (batch6.length = 6 ∧ (ready [good, bytes batch6]).replies = ⟨.ok, []⟩ :: ⟨.ok, batch6⟩ :: []) ∧
    (ready [good]).replies = ⟨.ok, []⟩ :: [] ∧ (ready [good, bytes [0x02]]).replies = ⟨.ok, []⟩ :: ⟨.ok, [0x02]⟩ :: [] :=
  ⟨⟨rfl, rfl, rfl⟩, ⟨rfl, rfl⟩, ⟨rfl, rfl⟩, rfl, rfl⟩

theorem test_witness_frame_failures :
    TransportStatus.timeout ≠ .ok ∧ (ready [late]).inited = true ∧ (ready [late]).replies = ⟨.timeout, []⟩ :: [] ∧
    (ready [good, late]).replies = ⟨.ok, []⟩ :: ⟨.timeout, []⟩ :: [] ∧ (ready [good, late]).delayReturns = 1 + 1 :=
  ⟨by decide, rfl, rfl, rfl, rfl⟩

/-- The four writers of the session and one request that writes none, each with a next state; the last waits. -/
theorem test_witness_whole_machine :
    (∃ t, exec (.setMode .hold) (ready []) = .next t ∧ t.seq = .done) ∧
    (∃ t, exec (.setResolution .L2) (ready [good]) = .next t) ∧
    (∃ t, exec .reset (ready [good]) = .next t ∧ t.seq = .done) ∧
    (∃ t, exec .init { State.reset with initReturns := 1 } = .next t ∧ t.seq = .done) ∧
    (∃ t, exec .readSerial (ready [good]) = .next t ∧ t.waits = true) :=
  ⟨⟨_, rfl, rfl⟩, ⟨_, rfl⟩, ⟨_, rfl, rfl⟩, ⟨_, rfl, rfl⟩, ⟨_, rfl, rfl⟩⟩

/-- A state in the middle of a request meets the invariant, and its step answers a next state. -/
theorem test_witness_invariant : (waitingRead [bytes [0x02]]).Inv ∧ ∃ t, step (waitingRead [bytes [0x02]]) = .next t := by
  refine ⟨⟨⟨.L0, rfl, rfl⟩, ⟨_, _, rfl, rfl⟩, fun h => absurd rfl h, ?_, ?_, fun _ _ _ => rfl⟩, _, rfl⟩
  · intro c hc
    simp [waitingRead] at hc
    rcases hc with rfl | rfl
    · exact ⟨rfl, .inl rfl⟩
    · exact ⟨rfl, by decide⟩
  · intro m hm
    simp [waitingRead] at hm
    subst hm
    trivial

/-- A machine that only the host drives, waiting in the middle of READ_REGISTER. -/
theorem test_witness_host_driven : (waitingRead [bytes [0x02]]).HostDriven ∧ ∃ t, step (waitingRead [bytes [0x02]]) = .next t := by
  refine ⟨⟨rfl, ⟨_, _, rfl, rfl⟩, fun _ => ⟨.readRegister, rfl, .hold, ⟨[writeCommand Opcode.readUserRegister], rfl⟩, rfl⟩, ?_⟩,
    _, rfl⟩
  intro h
  simp [waitingRead] at h

/-- The same, in the middle of WRITE_REGISTER 0x04, with the register byte 0x3A about to arrive. -/
def waitingMerge : State :=
  { waitingRead [bytes [0x3A]] with todo := [.readMirror, .merge, .writeMirror], answer := .noData, vArg := 0x04 }

/-- Its step makes the write, of 0x3A with the writable bits of 0x04. -/
theorem test_witness_host_driven_write :
    waitingMerge.HostDriven ∧ ∃ t, step waitingMerge = .next t ∧
      t.calls = waitingMerge.calls ++ [.writeWait 0x40 [0xE6, 0x3C]] := by
  refine ⟨⟨rfl, ⟨_, _, rfl, rfl⟩, fun _ => ⟨.writeRegister 0x04, rfl, .hold, ⟨[writeCommand Opcode.readUserRegister], rfl⟩, rfl⟩,
    ?_⟩, _, rfl, rfl⟩
  intro _ h
  exact absurd (List.mem_cons_self ..) h

/-- Each host move: a reset, a wait, a request, a response taken, a request that goes on. -/
theorem test_witness_host_moves :
    (∃ t, step { waiting [] with resetPin := true } = .next t) ∧ (∃ t, step State.reset = .next t) ∧
    (∃ t, step (asked 0x60000000 (ready [])) = .next t) ∧ (∃ t, step { State.reset with seq := .done } = .next t) ∧
    (∃ t, step (waiting [good]) = .next t) ∧ (waiting [good]).busy = true :=
  ⟨⟨_, rfl⟩, ⟨_, rfl⟩, ⟨_, rfl⟩, ⟨_, rfl⟩, ⟨_, rfl⟩, rfl⟩

/-- A request that waits and goes on: one that ends, one that waits again. -/
theorem test_witness_resumed :
    (∃ t, exec .readRegister (ready []) = .next t ∧ t.busy = true) ∧
    ((waiting [good, bytes [0x02]]).Serves .readRegister ∧ (waiting [good, bytes [0x02]]).PositionFits ∧
      (waiting [good, bytes [0x02]]).busy = true ∧ (waiting [good, bytes [0x02]]).resetPin = false ∧
      ∃ t, step (waiting [good, bytes [0x02]]) = .next t ∧ t.busy = false) ∧
    ((waiting [good]).Serves .readRegister ∧ (waiting [good]).PositionFits ∧ ∃ t, step (waiting [good]) = .next t ∧ t.busy = true) :=
  ⟨⟨_, rfl, rfl⟩, ⟨⟨.hold, ⟨[], rfl⟩, rfl⟩, ⟨_, _, rfl, rfl⟩, rfl, rfl, _, rfl, rfl⟩,
    ⟨⟨.hold, ⟨[], rfl⟩, rfl⟩, ⟨_, _, rfl, rfl⟩, _, rfl, rfl⟩⟩

/-- Two different states that agree but for the transient registers. -/
theorem test_witness_erased :
    let s := ready [good, bytes [0x02]]
    let t : State := { s with regmirror := 0xFF, vArg := 0x55, free := 9, rsp := ⟨.crcError, none⟩, answer := .serialNumber }
    s.erasedAtStart = t.erasedAtStart ∧ s ≠ t := ⟨rfl, by decide⟩

theorem test_witness_converter : (0 : Nat) < 65535 ∧ (65535 : Nat) < 65536 := by decide

end Sys2Proof.Tests
end

section
/-! PROOFS. The invariant: what entering and leaving a step do to it, and from that what a run, an instruction and a step do. -/

namespace Sys2Proof.Machine

/-! ### Phase and position -/

/-- A block in the phase of some step is busy. -/
theorem State.busy_of_seq {s : State} {m : Micro} (h : s.seq = m.phase) : s.busy = true := by
  obtain ⟨hidle, hdone⟩ := phase_busy m
  simp [State.busy, h, hidle, hdone]

/-- Where phase and position agree, the first step left to do gives the phase. -/
theorem State.PositionFits.seq_eq {s : State} {m : Micro} {rest : List Micro} (h : s.PositionFits)
    (ht : s.todo = m :: rest) : s.seq = m.phase := by
  unfold State.PositionFits at h
  split at h
  · obtain ⟨m', rest', ht', hs⟩ := h
    cases ht.symm.trans ht'
    exact hs
  · cases ht.symm.trans h

/-- The phase of the first step left to do makes phase and position agree. -/
theorem State.positionFits_of_seq {s : State} {m : Micro} {rest : List Micro} (ht : s.todo = m :: rest)
    (hs : s.seq = m.phase) : s.PositionFits := by
  rw [State.PositionFits, if_pos (State.busy_of_seq hs)]
  exact ⟨m, rest, ht, hs⟩

/-- Outside a request nothing left to do makes phase and position agree. -/
theorem State.positionFits_of_not_busy {s : State} (hb : s.busy = false) (ht : s.todo = []) : s.PositionFits := by
  simpa [State.PositionFits, hb] using ht

/-- Entering the next step, or the end of the path, makes phase and position agree. -/
theorem State.enter_positionFits (s : State) : s.enter.PositionFits := by
  cases ht : s.todo with
  | nil => exact State.positionFits_of_not_busy (by simp [State.enter_nil ht, State.busy]) (by simp [ht])
  | cons m rest => exact State.positionFits_of_seq (m := m) (rest := rest) (by simp [ht]) (by simp [State.enter_cons ht])

/-! ### What the invariant says besides phase and position -/

/-- `State.Inv` but for phase and position: what entering a step needs, to give the whole invariant. -/
structure State.Sound (s : State) : Prop where
  session : s.session.FromTable
  noDataOnError : s.rsp.status ≠ .ok → s.rsp.data = none
  calls : ∀ c ∈ s.calls, c.Legal
  steps : ∀ m ∈ s.todo, m.Legal
  booted : ∀ m ∈ s.todo, m.usesBus = true → s.inited = true

theorem State.inv_iff (s : State) : s.Inv ↔ s.PositionFits ∧ s.Sound :=
  ⟨fun ⟨session, position, noData, calls, steps, booted⟩ => ⟨position, session, noData, calls, steps, booted⟩,
    fun ⟨position, session, noData, calls, steps, booted⟩ => ⟨session, position, noData, calls, steps, booted⟩⟩

/-- With times of one row, the delay argument is one of the nine values (20_memory.md R57). -/
theorem Session.FromTable.delayArgument_mem {x : Session} (h : x.FromTable) (source : DelaySource) :
    x.delayArgument source ∈ delayValues := by
  obtain ⟨l, hT, hH⟩ := h
  cases source with
  | settle => exact (by decide : Config.resetSettleMs ∈ delayValues)
  | conversion q =>
    have rows : ∀ l : Level, toMs (timeT l) ∈ delayValues ∧ toMs (timeH l) ∈ delayValues := by
      intro l; cases l <;> decide
    cases q with
    | temperature => simpa only [Session.delayArgument, Session.delayMs, hT] using (rows l).1
    | humidity => simpa only [Session.delayArgument, Session.delayMs, hH] using (rows l).2

/-- A legal step makes legal calls only. -/
theorem State.callOf_legal {s : State} (hs : s.session.FromTable) {m : Micro} (hm : m.Legal) :
    ∀ c ∈ s.callOf m, c.Legal := by
  cases m with
  | write stop bytes => cases stop <;> simpa [State.callOf, Call.Legal, Config.devAddr, Micro.Legal] using hm
  | writeMirror => simp [State.callOf, Call.Legal, Config.devAddr, legalStopWrite, Opcode.writeUserRegister]
  | read len base => simpa [State.callOf, Call.Legal, Config.devAddr, Micro.Legal] using hm
  | readMirror => simp [State.callOf, Call.Legal, Config.devAddr]
  | delay source => simpa [State.callOf, Call.Legal] using hs.delayArgument_mem source
  | init => simp [State.callOf, Call.Legal]
  | _ => simp [State.callOf]

/-- Entering a step or the end of a path gives the invariant. -/
theorem State.Sound.enter_inv {s : State} (h : s.Sound) : s.enter.Inv := by
  refine (State.inv_iff _).2 ⟨s.enter_positionFits, ?_⟩
  obtain ⟨session, noData, calls, steps, booted⟩ := h
  cases ht : s.todo with
  | nil => rw [State.enter_nil ht]; exact ⟨session, by simp, calls, by simp, by simp⟩
  | cons m rest =>
    rw [State.enter_cons ht]
    refine ⟨session, noData, fun c hc => ?_, steps, booted⟩
    rcases List.mem_append.1 hc with hc | hc
    · exact calls c hc
    · exact State.callOf_legal session (steps m (by simp [ht])) c hc

/-- A step that goes on keeps the session times in one row. -/
theorem leave_go_fromTable {s t : State} {m : Micro} (h : s.leave m = .go t) (hs : s.session.FromTable) :
    t.session.FromTable := by
  have ht := leave_go_session h
  cases m with
  | defaults => exact ⟨.L0, by rw [ht]; exact ⟨rfl, rfl⟩⟩
  | times l => exact ⟨l, by rw [ht]; exact ⟨rfl, rfl⟩⟩
  | mode k => obtain ⟨l, hl⟩ := hs; exact ⟨l, by rw [ht]; exact hl⟩
  | _ => exact ht.symm ▸ hs

/-- Going on from one step to the next keeps the invariant. -/
theorem State.Inv.enter_of_go {s t : State} {m : Micro} {rest : List Micro} (h : s.Inv) (ht : s.todo = m :: rest)
    (hl : s.leave m = .go t) : ({ t with todo := rest }.enter).Inv := by
  obtain ⟨-, -, hcalls, hrsp, -, -⟩ := leave_go hl
  have inRest : ∀ m' ∈ rest, m' ∈ s.todo := fun m' hm' => by simp [ht, hm']
  exact State.Sound.enter_inv
    { session := leave_go_fromTable (t := t) hl h.session
      noDataOnError := fun hst => hrsp ▸ h.noDataOnError (hrsp ▸ hst)
      calls := fun c hc => h.calls c (hcalls ▸ hc)
      steps := fun m' hm' => h.steps m' (inRest m' hm')
      booted := fun m' hm' hb => leave_go_inited (t := t) hl (h.booted m' (inRest m' hm') hb) }

/-- A step that ends the request keeps the invariant. -/
theorem State.Inv.of_stop {s t : State} {m : Micro} (h : s.Inv) (hl : s.leave m = .stop t) : t.Inv := by
  obtain ⟨-, -, hcalls, hseq, htodo, hsession, -, hdata, -, -⟩ := leave_stop hl
  exact
    { session := hsession ▸ h.session
      position := State.positionFits_of_not_busy (by simp [State.busy, hseq]) htodo
      noDataOnError := fun _ => hdata
      calls := fun c hc => h.calls c (hcalls ▸ hc)
      steps := by simp [htodo]
      booted := by simp [htodo] }

/-- A run keeps the invariant. -/
theorem State.Inv.run {s t : State} (h : s.Inv) (hr : s.run s.todo = .next t) : t.Inv :=
  State.run_induction (P := fun s path => s.Inv ∧ s.todo = path) (Q := State.Inv)
    (fun s m rest t ⟨hi, ht⟩ hl => ⟨hi.enter_of_go ht hl, by simp⟩)
    (fun s m rest t ⟨hi, _⟩ hl => hi.of_stop hl)
    (fun s m rest ⟨hi, _⟩ _ => hi)
    (fun s ⟨hi, _⟩ => hi)
    s.todo s t ⟨h, rfl⟩ hr

/-! ### Instructions -/

/-- Both measurement cycles make legal calls only. -/
theorem acquireCycle_legal (q : Quantity) (mode : AcqMode) : ∀ m ∈ acquireCycle q mode, m.Legal := by
  cases mode <;>
    simp [acquireCycle, writeCommand, writeCommandNoStop, Micro.Legal, legalStopWrite, legalNoStopWrite]

/-- Every step of an instruction's path makes legal calls only. -/
theorem pathOf_legal (mode : AcqMode) (i : Instr) : ∀ m ∈ (pathOf mode i).1, m.Legal := by
  have measured (q : Quantity) (mode : AcqMode) : ∀ m ∈ acquireSteps q mode, m.Legal := fun m hm =>
    (List.mem_append.1 hm).elim (acquireCycle_legal q mode m) fun hcheck => by simp_all [Micro.Legal]
  cases i with
  | readTemperature => exact measured .temperature mode
  | readHumidity => exact measured .humidity mode
  | busReadTempHold => exact acquireCycle_legal .temperature .hold
  | busReadTempPoll => exact acquireCycle_legal .temperature .poll
  | busReadHumidityHold => exact acquireCycle_legal .humidity .hold
  | busReadHumidityPoll => exact acquireCycle_legal .humidity .poll
  | _ =>
    simp [pathOf, setResolutionSteps, readRegisterSteps, writeRegisterSteps, serialFirstCycle, serialSecondCycle,
      serialChecks, writeCommand, writeCommandNoStop, writeCommand16NoStop, splitOpcode_first8, splitOpcode_last6,
      Micro.Legal, legalStopWrite, legalNoStopWrite, Opcode.writeUserRegister]

/-- An instruction whose path uses the bus needs INIT first (70_reset_and_hazards.md R242). -/
theorem needsInit_of_usesBus (mode : AcqMode) (i : Instr) :
    ∀ m ∈ (pathOf mode i).1, m.usesBus = true → needsInit i = true := by
  cases i with
  | init => simp [pathOf, Micro.usesBus, Micro.phase]
  | setMode m => simp [pathOf, Micro.usesBus, Micro.phase]
  | crcCheck value crc => simp [pathOf, Micro.usesBus, Micro.phase]
  | _ => exact fun _ _ _ => rfl

/-- An instruction keeps the invariant. -/
theorem State.Inv.exec {i : Instr} {s t : State} (h : s.Inv) (he : exec i s = .next t) : t.Inv := by
  obtain ⟨u, hu, hr⟩ := exec_next he
  obtain ⟨hinit, v, rfl⟩ := startOf_next hu
  refine State.Inv.run (State.Sound.enter_inv ?_) hr
  exact
    { session := h.session
      noDataOnError := h.noDataOnError
      calls := h.calls
      steps := pathOf_legal _ i
      booted := fun m hm hb => hinit (needsInit_of_usesBus _ i m hm hb) }

/-! ### Steps -/

/-- Taking a packet off the port or the frames keeps the invariant. -/
theorem State.Inv.fetch {s t : State} {p : Packet} (h : s.Inv) (hf : s.fetch = some (p, t)) : t.Inv := by
  rcases fetch_cases s with ⟨e, -⟩ | ⟨w, rest, -, -, e⟩ | ⟨bytes, rest, -, e⟩ <;> cases e.symm.trans hf
  · exact ⟨h.session, h.position, h.noDataOnError, h.calls, h.steps, h.booted⟩
  · exact ⟨h.session, h.position, h.noDataOnError, h.calls, h.steps, h.booted⟩

/-- Giving the response keeps the invariant. -/
theorem State.Inv.takeResponse {s : State} (h : s.Inv) : s.takeResponse.Inv :=
  ⟨h.session, State.positionFits_of_not_busy rfl rfl, h.noDataOnError, h.calls, by simp, by simp⟩

/-- A hardware reset keeps the invariant. -/
theorem State.Inv.hardwareReset {s : State} (h : s.Inv) : s.hardwareReset.Inv :=
  ⟨⟨.L0, rfl, rfl⟩, State.positionFits_of_not_busy rfl rfl, fun _ => rfl, h.calls, by simp, by simp⟩

/-- Settles O50: every phase a request enters or leaves keeps the invariant, so a run of phases does, and with the port, the
response and hardware reset every step. -/
theorem everyStepKeepsTheInvariant : Obligations.EveryStepKeepsTheInvariant := by
  intro s t h hstep
  rcases step_cases s with ⟨-, e⟩ | ⟨-, -, -, e⟩ | ⟨-, -, p, u, hf, hd⟩ | ⟨-, -, e⟩ | ⟨-, -, e⟩
  · cases e.symm.trans hstep; exact h.hardwareReset
  · cases e.symm.trans hstep; exact h
  · rcases hd with ⟨i, -, e⟩ | ⟨r, -, e⟩
    · exact (h.fetch hf).exec (e.symm.trans hstep)
    · cases e.symm.trans hstep
  · cases e.symm.trans hstep; exact h.takeResponse
  · obtain ⟨m, rest, ht, -, hr⟩ := State.resume_next (e.symm.trans hstep)
    exact h.run (ht ▸ hr)

end Sys2Proof.Machine
end

section
/-! PROOFS. The reset state, and that no step faults where the invariant holds. -/

namespace Sys2Proof.Machine

/-- Settles O12: the values stand in `State.reset`, and its step finds nothing to take. -/
theorem resetStateHasTheGivenValues : Obligations.ResetStateHasTheGivenValues :=
  ⟨rfl, rfl, rfl, rfl, rfl, rfl, rfl⟩

/-- Settles O49: the reset state has the times of L0, and is idle with nothing left to do and no frame waiting. -/
theorem resetStateMeetsTheInvariant : Obligations.ResetStateMeetsTheInvariant := by
  have position : State.reset.PositionFits := State.positionFits_of_not_busy rfl rfl
  refine ⟨⟨⟨.L0, rfl, rfl⟩, position, fun _ => rfl, ?_, ?_, ?_⟩, ⟨rfl, position, ?_, ?_⟩⟩ <;>
    simp [State.reset, State.busy]

/-- No instruction faults where it starts. -/
theorem startOf_ne_fault (i : Instr) (s : State) (f : Fault) : startOf i s ≠ .fault f := by
  have bus (s : State) (path : List Micro) (k : Answer) : s.startBus path k ≠ .fault f := by
    unfold State.startBus; split <;> simp
  cases i with
  | init => change startInit s ≠ _; unfold startInit; split <;> simp
  | setMode m => exact fun h => by cases h
  | crcCheck value crc => exact fun h => by cases h
  | _ => exact bus _ _ _

/-- No instruction faults. -/
theorem exec_ne_fault (i : Instr) (s : State) (f : Fault) : exec i s ≠ .fault f := by
  rw [exec_eq_andRun_startOf]
  cases hs : startOf i s with
  | next u => exact State.run_no_fault u.todo u f
  | fault g => exact absurd hs (startOf_ne_fault i s g)
  | refused r => simp [andRun]

/-- A busy block whose phase and position agree does not fault. -/
theorem State.PositionFits.resume_ne_fault {s : State} (h : s.PositionFits) (hb : s.busy = true) (f : Fault) :
    s.resume ≠ .fault f := by
  rw [State.PositionFits, if_pos hb] at h
  obtain ⟨m, rest, ht, hs⟩ := h
  rw [State.resume_cons ht hs.symm]
  exact State.run_no_fault _ s f

/-- Settles O51: only a busy block that goes on can fault, and where phase and position agree it does not. -/
theorem noStepFaultsUnderTheInvariant : Obligations.NoStepFaultsUnderTheInvariant := by
  intro s f h
  rcases step_cases s with ⟨-, e⟩ | ⟨-, -, -, e⟩ | ⟨-, -, p, u, -, ⟨i, -, e⟩ | ⟨r, -, e⟩⟩ | ⟨-, -, e⟩ | ⟨-, hb, e⟩ <;>
    rw [e]
  · simp
  · simp
  · exact exec_ne_fault i u f
  · simp
  · simp
  · exact h.position.resume_ne_fault hb f

end Sys2Proof.Machine
end

section
/-! PROOFS. A run is a run of phase transitions. -/

namespace Sys2Proof.Machine

/-- Where an instruction starts, phase and position agree. -/
theorem startOf_next_positionFits {i : Instr} {s u : State} (h : startOf i s = .next u) : u.PositionFits := by
  obtain ⟨-, v, rfl⟩ := startOf_next h
  exact State.enter_positionFits _

/-- Starting an instruction leaves the reset pin. -/
theorem startOf_next_resetPin {i : Instr} {s u : State} (h : startOf i s = .next u) : u.resetPin = s.resetPin := by
  obtain ⟨-, v, rfl⟩ := startOf_next h
  exact State.enter_resetPin _

/-- The rest of a request's path is run in as many phase transitions as it takes, at least one if any step is left. -/
theorem exists_phaseSteps_eq_run (path : List Micro) (s : State) (hpin : s.resetPin = false) (hfit : s.PositionFits)
    (ht : s.todo = path) : ∃ n, phaseSteps n s = s.run path ∧ (path ≠ [] → 0 < n) := by
  induction path generalizing s with
  | nil => exact ⟨0, rfl, fun h => absurd rfl h⟩
  | cons m rest ih =>
    have hs := hfit.seq_eq ht
    have hp : phaseStep s = s.advance := phaseStep_busy hpin (State.busy_of_seq hs)
    cases hl : s.leave m with
    | go t =>
      obtain ⟨⟨-, -, -, hpin', -⟩, -⟩ := leave_go hl
      obtain ⟨n, hn, -⟩ := ih { t with todo := rest }.enter (by simp [hpin', hpin]) (State.enter_positionFits _) (by simp)
      exact ⟨n + 1, by simp [phaseSteps, State.run, hp, State.advance, ht, hs, hl, hn], fun _ => n.succ_pos⟩
    | stay => exact ⟨1, by simp [phaseSteps, State.run, hp, State.advance, ht, hs, hl], fun _ => Nat.one_pos⟩
    | stop t => exact ⟨1, by simp [phaseSteps, State.run, hp, State.advance, ht, hs, hl], fun _ => Nat.one_pos⟩
    | refuse r => exact ⟨1, by simp [phaseSteps, State.run, hp, State.advance, ht, hs, hl], fun _ => Nat.one_pos⟩

/-- One phase transition with the outcome of the step is a run of phase transitions with it. -/
theorem phaseSteps_one_of_eq {s : State} (h : phaseStep s = step s) : ∃ n, 0 < n ∧ phaseSteps n s = step s := by
  refine ⟨1, Nat.one_pos, ?_⟩
  rw [← h]
  cases hp : phaseStep s <;> simp [phaseSteps, hp]

/-- An idle block that takes a packet accepts it in one phase transition. -/
theorem phaseStep_of_fetch {s t : State} {p : Packet} {i : Instr} (hpin : s.resetPin = false) (hs : s.seq = .idle)
    (hf : s.fetch = some (p, t)) (hd : decode p = .ok i) : phaseStep s = startOf i t := by
  simp [phaseStep, hpin, hs, hf, hd]

/-- What `fetch` takes leaves the reset pin. -/
theorem fetch_resetPin {s t : State} {p : Packet} (hf : s.fetch = some (p, t)) : t.resetPin = s.resetPin := by
  rcases fetch_cases s with ⟨e, -⟩ | ⟨w, rest, -, -, e⟩ | ⟨bytes, rest, -, e⟩ <;> cases e.symm.trans hf <;> rfl

/-- A packet taken is its acceptance and then the phases of its path. -/
theorem exists_phaseSteps_of_fetch {s t : State} {p : Packet} {i : Instr} (hpin : s.resetPin = false) (hs : s.seq = .idle)
    (hf : s.fetch = some (p, t)) (hd : decode p = .ok i) (he : step s = exec i t) : ∃ n, 0 < n ∧ phaseSteps n s = step s := by
  have hp := phaseStep_of_fetch hpin hs hf hd
  rw [exec_eq_andRun_startOf] at he
  cases hu : startOf i t with
  | next u =>
    have hpin' : u.resetPin = false := by rw [startOf_next_resetPin hu, fetch_resetPin hf, hpin]
    obtain ⟨n, hn, -⟩ := exists_phaseSteps_eq_run _ u hpin' (startOf_next_positionFits hu) rfl
    exact ⟨n + 1, n.succ_pos, by simp only [phaseSteps, hp, he, hu]; exact hn⟩
  | fault f => exact absurd hu (startOf_ne_fault i t f)
  | refused r => exact phaseSteps_one_of_eq (by rw [hp, he, hu]; rfl)

/-- A request that goes on walks the phases left of its path; where phase and position disagree, both machines fault. -/
theorem exists_phaseSteps_of_busy {s : State} (hpin : s.resetPin = false) (hb : s.busy = true) :
    ∃ n, 0 < n ∧ phaseSteps n s = step s := by
  have hstep := step_busy hpin hb
  have hphase := phaseStep_busy hpin hb
  cases ht : s.todo with
  | nil => exact phaseSteps_one_of_eq (by simp [hstep, hphase, State.advance, State.resume, ht])
  | cons m rest =>
    by_cases hm : m.phase = s.seq
    · obtain ⟨n, hn, hpos⟩ := exists_phaseSteps_eq_run _ s hpin (State.positionFits_of_seq ht hm.symm) ht
      exact ⟨n, hpos (by simp), by rw [hn, hstep, State.resume_cons ht hm]⟩
    · exact phaseSteps_one_of_eq (by simp [hstep, hphase, State.advance, State.resume, ht, hm])

/-- Settles O53: a packet taken and a request that goes on are runs of phases, and every other step is one phase transition. -/
theorem stepIsARunOfPhaseTransitions : Obligations.StepIsARunOfPhaseTransitions := by
  intro s
  rcases step_cases s with ⟨hpin, e⟩ | ⟨hpin, hs, hf, e⟩ | ⟨hpin, hs, p, t, hf, ⟨i, hd, e⟩ | ⟨r, hd, e⟩⟩ |
    ⟨hpin, hs, e⟩ | ⟨hpin, hb, -⟩
  · exact phaseSteps_one_of_eq (by rw [e]; simp [phaseStep, hpin])
  · exact phaseSteps_one_of_eq (by rw [e]; simp [phaseStep, hpin, hs, hf])
  · exact exists_phaseSteps_of_fetch hpin hs hf hd e
  · exact phaseSteps_one_of_eq (by rw [e]; simp [phaseStep, hpin, hs, hf, hd])
  · exact phaseSteps_one_of_eq (by rw [e]; simp [phaseStep, hpin, hs])
  · exact exists_phaseSteps_of_busy hpin hb

end Sys2Proof.Machine
end

section
/-! PROOFS. Which steps write the session, and which instructions (10_state.md R23). -/

namespace Sys2Proof.Machine

/-- What a step that goes on does to the session. -/
def Micro.onSession : Micro → Session → Session
  | .defaults, _ => ⟨.poll, 50000, 16000⟩
  | .times l, x => { x with temperatureConversionTimeUs := timeT l, humidityConversionTimeUs := timeH l }
  | .mode k, x => { x with acquisitionMode := k }
  | _, x => x

/-- What an instruction writes to the session, if it writes it (10_state.md R23; for the bus rows notes/assumptions/5.md). -/
def sessionWrite : Instr → Session → Option Session
  | .init, _ => some ⟨.poll, 50000, 16000⟩
  | .reset, x => some { x with temperatureConversionTimeUs := 50000, humidityConversionTimeUs := 16000 }
  | .setMode k, x => some { x with acquisitionMode := k }
  | .setResolution l, x => some { x with temperatureConversionTimeUs := timeT l, humidityConversionTimeUs := timeH l }
  | _, _ => none

/-- `Micro.onSession` is what leaving a step does to the session. -/
theorem leave_go_onSession {s t : State} {m : Micro} (h : s.leave m = .go t) : t.session = m.onSession s.session := by
  rw [leave_go_session h]
  cases m <;> rfl

/-- A run keeps what holds of the session and is kept by every step of the path. -/
theorem State.run_session {P : Session → Prop} {path : List Micro} {s t : State}
    (keeps : ∀ m ∈ path, ∀ x, P x → P (m.onSession x)) (hs : P s.session) (hr : s.run path = .next t) : P t.session := by
  refine State.run_induction
    (P := fun s path => P s.session ∧ ∀ m ∈ path, ∀ x, P x → P (m.onSession x)) (Q := fun t => P t.session)
    ?go ?stop (fun s m rest h _ => h.1) (fun s h => h.1) path s t ⟨hs, keeps⟩ hr
  case go =>
    rintro s m rest t ⟨hs, keeps⟩ hl
    have ht : P t.session := leave_go_onSession hl ▸ keeps m (by simp) _ hs
    exact ⟨by simpa using ht, fun m' hm' => keeps m' (by simp [hm'])⟩
  case stop =>
    rintro s m rest t ⟨hs, -⟩ hl
    obtain ⟨-, -, -, -, -, hsession, -⟩ := leave_stop hl
    exact hsession ▸ hs

/-- A LOCAL step waits for nothing and always goes on. -/
theorem leave_of_local {m : Micro} (hm : m.phase = .localStep) (s : State) : ∃ t, s.leave m = .go t := by
  cases m with
  | defaults => exact ⟨_, rfl⟩
  | times l => exact ⟨_, rfl⟩
  | mode k => exact ⟨_, rfl⟩
  | selectV l => exact ⟨_, rfl⟩
  | merge => exact ⟨_, rfl⟩
  | _ => cases hm

/-- A run whose first step is LOCAL has made that step's session write wherever it ends. -/
theorem State.run_session_of_local {P : Session → Prop} {m : Micro} {rest : List Micro} {s t : State}
    (hm : m.phase = .localStep) (keeps : ∀ m' ∈ rest, ∀ x, P x → P (m'.onSession x)) (hs : P (m.onSession s.session))
    (hr : s.run (m :: rest) = .next t) : P t.session := by
  obtain ⟨u, hu⟩ := leave_of_local hm s
  rw [State.run, hu] at hr
  exact State.run_session keeps (by simpa [leave_go_onSession hu] using hs) hr

/-- No step of a measurement writes the session. -/
theorem onSession_of_mem_acquireSteps {q : Quantity} {mode : AcqMode} {m : Micro} (hm : m ∈ acquireSteps q mode)
    (x : Session) : m.onSession x = x := by
  revert m
  cases mode <;> simp [acquireSteps, acquireCycle, writeCommand, writeCommandNoStop, Micro.onSession]

/-- Every step of an instruction's path leaves the session or makes that instruction's write. -/
theorem onSession_of_mem_pathOf {mode : AcqMode} {i : Instr} {m : Micro} (hm : m ∈ (pathOf mode i).1) (x : Session) :
    m.onSession x = x ∨ sessionWrite i x = some (m.onSession x) := by
  revert m
  cases i with
  | readTemperature => exact fun hm => .inl (onSession_of_mem_acquireSteps hm x)
  | readHumidity => exact fun hm => .inl (onSession_of_mem_acquireSteps hm x)
  | _ =>
    simp [pathOf, setResolutionSteps, acquireCycle, readRegisterSteps, writeRegisterSteps, serialFirstCycle,
      serialSecondCycle, serialChecks, writeCommand, writeCommandNoStop, writeCommand16NoStop, Micro.onSession,
      sessionWrite, timeT, timeH]

/-- An instruction's write, made twice, is made once. -/
theorem sessionWrite_idem {i : Instr} {x y : Session} (h : sessionWrite i x = some y) : sessionWrite i y = some y := by
  cases i <;> cases h <;> rfl

/-- Where an instruction's write has been made, every step of its path leaves the session. -/
theorem onSession_of_written {mode : AcqMode} {i : Instr} {m : Micro} (hm : m ∈ (pathOf mode i).1) {x y : Session}
    (h : sessionWrite i x = some y) : sessionWrite i x = some (m.onSession y) := by
  rcases onSession_of_mem_pathOf hm y with e | e
  · rw [e, h]
  · rw [← e, h, sessionWrite_idem h]

/-- A run of steps of an instruction's path leaves the session or makes that instruction's write. -/
theorem State.run_sessionWrite {mode : AcqMode} {i : Instr} {path : List Micro} {s t : State}
    (hp : path ⊆ (pathOf mode i).1) (hr : s.run path = .next t) :
    t.session = s.session ∨ sessionWrite i s.session = some t.session := by
  refine State.run_session (P := fun y => y = s.session ∨ sessionWrite i s.session = some y) ?_ (.inl rfl) hr
  rintro m hm y (rfl | h)
  · exact onSession_of_mem_pathOf (hp hm) _
  · exact .inr (onSession_of_written (hp hm) h)

/-- An instruction leaves the session or makes its write. -/
theorem exec_sessionWrite {i : Instr} {s t : State} (h : exec i s = .next t) :
    t.session = s.session ∨ sessionWrite i s.session = some t.session := by
  obtain ⟨u, hu, hr⟩ := exec_next h
  obtain ⟨-, v, rfl⟩ := startOf_next hu
  rw [State.start_todo] at hr
  simpa [State.start_session] using State.run_sessionWrite (fun _ hm => hm) hr

/-- An instruction whose path begins with a LOCAL step that makes its write makes it on every outcome. -/
theorem exec_sessionWrite_of_local {i : Instr} {s t : State} {m : Micro} {rest : List Micro}
    (hp : (pathOf s.session.acquisitionMode i).1 = m :: rest) (hm : m.phase = .localStep)
    (hw : sessionWrite i s.session = some (m.onSession s.session)) (h : exec i s = .next t) :
    sessionWrite i s.session = some t.session := by
  obtain ⟨u, hu, hr⟩ := exec_next h
  obtain ⟨-, v, rfl⟩ := startOf_next hu
  rw [State.start_todo, hp] at hr
  refine State.run_session_of_local (P := fun y => sessionWrite i s.session = some y) hm ?_
    (by simpa [State.start_session] using hw) hr
  exact fun m' hm' y hy => onSession_of_written (mode := s.session.acquisitionMode) (by simp [hp, hm']) hy

/-- Settles O45: INIT, SET_MODE and SET_RESOLUTION begin with their write, RESET makes it or does not, and no other path has a step
that writes the session. -/
theorem onlyFourRequestsWriteTheSession : Obligations.OnlyFourRequestsWriteTheSession := by
  intro i s t h
  cases i with
  | init => exact (Option.some.inj (exec_sessionWrite_of_local rfl rfl rfl h)).symm
  | setMode m => exact (Option.some.inj (exec_sessionWrite_of_local rfl rfl rfl h)).symm
  | setResolution l => exact (Option.some.inj (exec_sessionWrite_of_local rfl rfl rfl h)).symm
  | reset => exact (exec_sessionWrite h).imp_right fun hw => (Option.some.inj hw).symm
  | _ => simpa [sessionWrite] using exec_sessionWrite h

end Sys2Proof.Machine
end

section
/-! PROOFS. Where the run of a request comes to rest: waiting on its path, or ended with one of its outcomes (60_exceptions.md R211). -/

namespace Sys2Proof.Machine

/-- A step that ends the request is a transfer, with an outcome of a transport status, or a check, with CRC_ERROR. -/
theorem leave_stop_cases {s t : State} {m : Micro} (h : s.leave m = .stop t) :
    (m.usesBus = true ∧ t.rsp.status ≠ .crcError) ∨ (m.phase = .crcRun ∧ t.rsp.status = .crcError) := by
  obtain ⟨-, -, -, -, -, -, -, -, -, hcrc⟩ := leave_stop h
  cases m with
  | check source =>
    rcases runCheck_cases s source with e | e <;> cases e.symm.trans h
    exact .inr ⟨rfl, rfl⟩
  | init => rcases awaitInit_cases s with ⟨-, e⟩ | ⟨n, -, e⟩ <;> cases e.symm.trans h
  | defaults => cases h
  | times l => cases h
  | mode k => cases h
  | selectV l => cases h
  | merge => cases h
  | _ => exact .inl ⟨rfl, fun e => by obtain ⟨source, hm⟩ := hcrc e; cases hm⟩

/-- Every instruction may end OK. -/
theorem mayEnd_ok (i : Instr) : mayEnd i .ok = true := by cases i <;> rfl

/-- A bus user may end with every outcome but perhaps CRC_ERROR. -/
theorem mayEnd_of_needsInit {i : Instr} {st : Status} (hi : needsInit i = true) (hst : st ≠ .crcError) :
    mayEnd i st = true := by
  cases i with
  | init => cases hi
  | setMode m => cases hi
  | crcCheck value crc => cases hi
  | readTemperature => rfl
  | readHumidity => rfl
  | readSerial => rfl
  | _ => simpa [mayEnd] using hst

/-- An instruction whose path has a check may end with CRC_ERROR. -/
theorem mayEnd_crcError_of_check {mode : AcqMode} {i : Instr} {m : Micro} (hm : m ∈ (pathOf mode i).1)
    (hphase : m.phase = .crcRun) : mayEnd i .crcError = true := by
  revert m
  cases i with
  | crcCheck value crc => exact fun _ _ => rfl
  | readTemperature => exact fun _ _ => rfl
  | readHumidity => exact fun _ _ => rfl
  | readSerial => exact fun _ _ => rfl
  | _ =>
    simp [pathOf, setResolutionSteps, acquireCycle, readRegisterSteps, writeRegisterSteps, serialFirstCycle,
      serialSecondCycle, writeCommand, writeCommandNoStop, writeCommand16NoStop, Micro.phase]

/-- The outcome with which a step of an instruction's path ends it is one of the instruction's. -/
theorem mayEnd_of_leave_stop {mode : AcqMode} {i : Instr} {m : Micro} {s t : State} (hm : m ∈ (pathOf mode i).1)
    (h : s.leave m = .stop t) : mayEnd i t.rsp.status = true := by
  rcases leave_stop_cases h with ⟨hbus, hst⟩ | ⟨hcheck, hst⟩
  · exact mayEnd_of_needsInit (needsInit_of_usesBus mode i m hm hbus) hst
  · exact hst ▸ mayEnd_crcError_of_check hm hcheck

/-- The block is on the path of instruction `i` and waits, or has ended it with one of its outcomes. -/
structure State.RestsIn (t : State) (i : Instr) : Prop where
  waiting : t.busy = true → t.Serves i ∧ t.PositionFits ∧ t.waits = true
  ended : t.busy = false → t.seq = .done ∧ mayEnd i t.rsp.status = true ∧ (t.rsp.status ≠ .ok → t.rsp.data = none)

/-- A state that serves an instruction has only steps of its path left to do. -/
theorem State.Serves.exists_mem {s : State} {i : Instr} (h : s.Serves i) :
    ∃ mode, s.todo ⊆ (pathOf mode i).1 := by
  obtain ⟨mode, hsuffix, -⟩ := h
  exact ⟨mode, hsuffix.subset⟩

/-- A block in a step's phase that stays there waits. -/
theorem waits_of_leave_stay {s : State} {m : Micro} (hs : s.seq = m.phase) (hl : s.leave m = .stay) : s.waits = true := by
  rcases leave_stay hl with ⟨hm, h⟩ | ⟨hm, h⟩ | ⟨hm, h⟩ | ⟨hm, h⟩ <;> simp [State.waits, hs, hm, h]

/-- Entering the end of a path rests in the instruction with OK. -/
theorem State.enter_restsIn {s : State} (i : Instr) (ht : s.todo = []) : s.enter.RestsIn i := by
  rw [State.enter_nil ht]
  exact ⟨by simp [State.busy], fun _ => ⟨rfl, mayEnd_ok i, fun h => absurd rfl h⟩⟩

/-- What is handed on along the path of instruction `i`: the block serves it in the phase of its position, and at the end of the path has
ended it. -/
structure State.OnPath (i : Instr) (s : State) (path : List Micro) : Prop where
  todo : s.todo = path
  position : s.PositionFits
  serves : s.Serves i
  ended : path = [] → s.RestsIn i

/-- A run of what is left of an instruction's path comes to rest in the instruction. -/
theorem State.OnPath.run {i : Instr} {path : List Micro} {s t : State} (h : State.OnPath i s path)
    (hr : s.run path = .next t) : t.RestsIn i := by
  refine State.run_induction (P := State.OnPath i) (Q := fun t => t.RestsIn i) ?go ?stop ?stay
    (fun s h => h.ended rfl) path s t h hr
  case go =>
    intro s m rest t h hl
    obtain ⟨-, -, -, -, hanswer, -⟩ := leave_go hl
    obtain ⟨mode, hsuffix, hkind⟩ := h.serves
    refine ⟨by simp, State.enter_positionFits _, ⟨mode, ?_, by simp [hanswer, hkind]⟩, ?_⟩
    · rw [State.enter_todo]
      exact (List.suffix_cons m rest).trans (h.todo ▸ hsuffix)
    · exact fun hnil => State.enter_restsIn i hnil
  case stop =>
    intro s m rest t h hl
    obtain ⟨-, -, -, hseq, -, -, -, hdata, -⟩ := leave_stop hl
    obtain ⟨mode, hmem⟩ := h.serves.exists_mem
    have hm : m ∈ (pathOf mode i).1 := hmem (by simp [h.todo])
    exact ⟨by simp [State.busy, hseq], fun _ => ⟨hseq, mayEnd_of_leave_stop hm hl, fun _ => hdata⟩⟩
  case stay =>
    intro s m rest h hl
    have hs : s.seq = m.phase := h.position.seq_eq h.todo
    have hb := State.busy_of_seq hs
    exact ⟨fun _ => ⟨h.serves, h.position, waits_of_leave_stay hs hl⟩, by simp [hb]⟩

/-- An instruction comes to rest: it waits on its path, or has ended with one of its outcomes. -/
theorem exec_restsIn {i : Instr} {s t : State} (h : exec i s = .next t) : t.RestsIn i := by
  obtain ⟨u, hu, hr⟩ := exec_next h
  have hfit := startOf_next_positionFits hu
  obtain ⟨-, v, rfl⟩ := startOf_next hu
  refine State.OnPath.run ⟨rfl, hfit, ⟨s.session.acquisitionMode, ?_, by simp [State.start]⟩, ?_⟩ hr
  · rw [State.start_todo]
  · exact fun hnil => absurd ((State.start_todo ..).symm.trans hnil) (pathOf_ne_nil _ i)

/-- Settles O60: a step that resumes a request runs what is left of its path, which comes to rest in the instruction and has no step
that writes the session but for the instruction's own write. -/
theorem resumedRequestKeepsToItsInstruction : Obligations.ResumedRequestKeepsToItsInstruction := by
  refine ⟨fun i s t h hb => ((exec_restsIn h).waiting hb).1, fun i s t hserves hfit hb hpin hstep => ?_⟩
  rw [step_busy hpin hb] at hstep
  obtain ⟨m, rest, ht, -, hr⟩ := State.resume_next hstep
  have hrest : t.RestsIn i := State.OnPath.run ⟨ht, hfit, hserves, by simp⟩ hr
  refine ⟨hrest.waiting, ?_, hrest.ended⟩
  obtain ⟨mode, hmem⟩ := hserves.exists_mem
  refine (State.run_sessionWrite (ht ▸ hmem) hr).imp_right fun hw => ?_
  cases i with
  | init => exact (Option.some.inj hw).symm
  | setMode m => exact (Option.some.inj hw).symm
  | setResolution l => exact (Option.some.inj hw).symm
  | reset => exact (Option.some.inj hw).symm
  | _ => cases hw

end Sys2Proof.Machine
end

section
/-! PROOFS. Two runs of one instruction that differ in the transient registers only (10_state.md R24 to R26, 60_exceptions.md
R217): what the path has written so far is the same in both, and a path reads nothing else. -/

namespace Sys2Proof.Machine

/-! ### Where an instruction starts -/

/-- V where an instruction starts: set by WRITE_REGISTER, and left by the others. -/
def startV : Instr → Byte → Byte
  | .writeRegister v, _ => v
  | _, old => old

/-- The state an instruction starts in. -/
def State.startFor (s : State) (i : Instr) : State :=
  State.start { s with vArg := startV i s.vArg } (pathOf s.session.acquisitionMode i).1 (pathOf s.session.acquisitionMode i).2

/-- An instruction within the boot order starts on its path (70_reset_and_hazards.md R242, 46_system_ops.md R190). -/
theorem startOf_of_booted {i : Instr} {s : State} (hinit : i = .init → s.inited = false)
    (hbus : needsInit i = true → s.inited = true) : startOf i s = .next (s.startFor i) := by
  cases i with
  | init => exact if_neg (by simp [hinit rfl])
  | setMode m => rfl
  | crcCheck value crc => rfl
  | _ => exact if_pos (hbus rfl)

/-- A bus user before INIT is refused. -/
theorem startOf_of_not_inited {i : Instr} {s : State} (hi : needsInit i = true) (hs : s.inited = false) :
    startOf i s = .refused .notInitialised := by
  cases i with
  | init => cases hi
  | setMode m => cases hi
  | crcCheck value crc => cases hi
  | _ => exact if_neg (by simp [hs])

/-- A second INIT is refused. -/
theorem startOf_init_of_inited {s : State} (hs : s.inited = true) : startOf .init s = .refused .secondInit := if_pos hs

/-! ### What a path has written so far -/

/-- Which transient registers a request has written: the first `rx` bytes of `rxbuf`, the mirror, V. -/
structure Written where
  rx : Nat
  mirror : Bool
  v : Bool

/-- What a step of a path reads has been written. -/
def Written.covers (k : Written) : Micro → Bool
  | .writeMirror => k.mirror
  | .check (.operands _ _) => true
  | .check (.pair i) => i + 2 ≤ k.rx
  | .check (.triple i) => i + 3 ≤ k.rx
  | .selectV _ => k.mirror
  | .merge => k.mirror && k.v
  | _ => true

/-- What has been written after a step. -/
def Written.after (k : Written) : Micro → Written
  | .read len base => { k with rx := if base ≤ k.rx then max k.rx (base + len) else k.rx }
  | .readMirror => { k with rx := max k.rx 1, mirror := true }
  | .selectV _ => { k with v := true }
  | _ => k

/-- What an answer carries has been written. -/
def Written.coversAnswer (k : Written) : Answer → Bool
  | .noData => true
  | .rawValue => 2 ≤ k.rx
  | .registerByte => k.mirror
  | .serialNumber => 13 ≤ k.rx

/-- A path reads only what it has written, from its first step to its answer. -/
def Written.coversPath (k : Written) : List Micro → Answer → Bool
  | [], answer => k.coversAnswer answer
  | m :: rest, answer => k.covers m && (k.after m).coversPath rest answer

/-- What has been written where an instruction starts: V by WRITE_REGISTER. -/
def Written.atStart : Instr → Written
  | .writeRegister _ => ⟨0, false, true⟩
  | _ => ⟨0, false, false⟩

/-- Every instruction reads only what it has written (10_state.md R24, R25). -/
theorem coversPath_pathOf (mode : AcqMode) (i : Instr) :
    (Written.atStart i).coversPath (pathOf mode i).1 (pathOf mode i).2 = true := by
  cases i <;> cases mode <;> rfl

/-! ### Two states that agree -/

/-- Two states agree but for transient registers that have not been written. -/
structure State.Agree (k : Written) (s t : State) : Prop where
  erased : s.erased = t.erased
  rx : ∀ i < k.rx, s.rx i = t.rx i
  mirror : k.mirror = true → s.regmirror = t.regmirror
  v : k.v = true → s.vArg = t.vArg

/-- Two states in a check have the same loaded datapath. -/
def State.SameLoad (s t : State) : Prop :=
  ∀ source rest, s.todo = .check source :: rest → s.crc = t.crc

section Agree

variable {k : Written} {s t : State} (h : State.Agree k s t)
include h

theorem State.Agree.session_eq : s.session = t.session := (congrArg State.session h.erased :)
theorem State.Agree.todo_eq : s.todo = t.todo := (congrArg State.todo h.erased :)
theorem State.Agree.answer_eq : s.answer = t.answer := (congrArg State.answer h.erased :)
theorem State.Agree.replies_eq : s.replies = t.replies := (congrArg State.replies h.erased :)
theorem State.Agree.delayReturns_eq : s.delayReturns = t.delayReturns := (congrArg State.delayReturns h.erased :)
theorem State.Agree.initReturns_eq : s.initReturns = t.initReturns := (congrArg State.initReturns h.erased :)

/-- What a check is given is the same in both. -/
theorem State.Agree.checkValue_eq {source : CheckSource} (hm : k.covers (.check source) = true) :
    s.checkValue source = t.checkValue source ∧ s.checkCrc source = t.checkCrc source := by
  cases source with
  | operands value crc => exact ⟨rfl, rfl⟩
  | pair i =>
    have hi : i + 2 ≤ k.rx := of_decide_eq_true hm
    simp [State.checkValue, State.checkCrc, h.rx i (by omega), h.rx (i + 1) (by omega)]
  | triple i =>
    have hi : i + 3 ≤ k.rx := of_decide_eq_true hm
    simp [State.checkValue, State.checkCrc, State.rawAt, h.rx i (by omega), h.rx (i + 1) (by omega), h.rx (i + 2) (by omega)]

/-- A step makes the same calls in both. -/
theorem State.Agree.callOf_eq {m : Micro} (hm : k.covers m = true) : s.callOf m = t.callOf m := by
  cases m with
  | write stop bytes => cases stop <;> rfl
  | writeMirror => simp only [State.callOf, h.mirror hm]
  | delay source => simp only [State.callOf, h.session_eq]
  | _ => rfl

/-- What an answer carries is the same in both. -/
theorem State.Agree.answerData_eq {a : Answer} (ha : k.coversAnswer a = true) : s.answerData a = t.answerData a := by
  cases a with
  | noData => rfl
  | rawValue =>
    have hk : 2 ≤ k.rx := of_decide_eq_true ha
    simp [State.answerData, State.rawAt, h.rx 0 (by omega), h.rx 1 (by omega)]
  | registerByte => simp only [State.answerData, h.mirror ha]
  | serialNumber =>
    have hk : 13 ≤ k.rx := of_decide_eq_true ha
    simp [State.answerData, State.serial, h.rx 0 (by omega), h.rx 2 (by omega), h.rx 4 (by omega), h.rx 6 (by omega),
      h.rx 8 (by omega), h.rx 9 (by omega), h.rx 11 (by omega), h.rx 12 (by omega)]

end Agree

/-- An update that says the same of what is erased, and leaves the registers a path may read. -/
structure PublicUpdate (f : State → State) : Prop where
  erased : ∀ u : State, (f u).erased = f u.erased
  rxbuf : ∀ u : State, (f u).rxbuf = u.rxbuf
  mirror : ∀ u : State, (f u).regmirror = u.regmirror
  v : ∀ u : State, (f u).vArg = u.vArg

/-- The same public update of both keeps them in agreement. -/
theorem State.Agree.update {k : Written} {s t : State} (h : State.Agree k s t) {f : State → State} (hf : PublicUpdate f) :
    State.Agree k (f s) (f t) := by
  have regs (u : State) (i : Nat) : (f u).rx i = u.rx i := by simp only [State.rx, hf.rxbuf]
  exact
    { erased := by rw [hf.erased, hf.erased, h.erased]
      rx := by simpa only [regs] using h.rx
      mirror := by simpa only [hf.mirror] using h.mirror
      v := by simpa only [hf.v] using h.v }

/-- The same outcome raised in both looks alike. -/
theorem State.Agree.raise_erased {k : Written} {s t : State} (h : State.Agree k s t) (status : Status) :
    (s.raise status).erased = (t.raise status).erased :=
  (congrArg (fun u : State => u.raise status) h.erased :)

/-- Entering a step, seen through `State.erased`. -/
theorem State.erased_enter_cons {s : State} {m : Micro} {rest : List Micro} (ht : s.todo = m :: rest) :
    s.enter.erased = { s.erased with seq := m.phase, calls := s.calls ++ s.callOf m, rsp := ⟨.ok, none⟩ } := by
  rw [State.enter_cons ht]
  simp [State.erased, (phase_busy m).2]

/-- Two states that agree enter the next step, or the end of the path, in agreement. -/
theorem State.Agree.enter {k : Written} {s t : State} (h : State.Agree k s t)
    (hk : k.coversPath s.todo s.answer = true) :
    State.Agree k s.enter t.enter ∧ State.SameLoad s.enter t.enter := by
  have regs (u : State) (i : Nat) : u.enter.rx i = u.rx i := by simp [State.rx]
  refine ⟨⟨?_, by simpa [regs] using h.rx, by simpa using h.mirror, by simpa using h.v⟩, ?_⟩
  · cases ht : s.todo with
    | nil =>
      have ha : s.answerData s.answer = t.answerData t.answer := by
        rw [← h.answer_eq]; exact h.answerData_eq (by simpa [ht, Written.coversPath] using hk)
      rw [State.enter_nil ht, State.enter_nil (h.todo_eq ▸ ht), ha]
      exact congrArg (fun u : State => u.respond (t.answerData t.answer)) h.erased
    | cons m rest =>
      have hm : k.covers m = true := by simp [ht, Written.coversPath] at hk; exact hk.1
      rw [State.erased_enter_cons ht, State.erased_enter_cons (h.todo_eq ▸ ht), h.callOf_eq hm]
      exact congrArg (fun u : State => { u with seq := m.phase, calls := u.calls ++ t.callOf m, rsp := ⟨.ok, none⟩ }) h.erased
  · intro source rest ht
    rw [State.enter_todo] at ht
    have hm : k.covers (.check source) = true := by simp [ht, Written.coversPath] at hk; exact hk.1
    rw [State.enter_cons ht, State.enter_cons (h.todo_eq ▸ ht)]
    simp [State.crcOnEntry, (h.checkValue_eq hm).1]

/-! ### Leaving a step in both -/

/-- Two ways a step goes on or ends that no other agent can tell apart. -/
inductive Progress.Alike (k : Written) : Progress → Progress → Prop
  | go {s t : State} (h : State.Agree k s t) : Progress.Alike k (.go s) (.go t)
  | stay : Progress.Alike k .stay .stay
  | stop {s t : State} (h : s.erased = t.erased) : Progress.Alike k (.stop s) (.stop t)
  | refuse (r : Refusal) : Progress.Alike k (.refuse r) (.refuse r)

/-- `rxbuf[i]` after a fill: of the bytes where they reach, and as before elsewhere. -/
theorem rx_fillBuffer (s : State) (base : Nat) (bytes : List Byte) (i : Nat) :
    State.rx { s with rxbuf := fillBuffer s.rxbuf base bytes } i =
      if i < 14 ∧ base ≤ i ∧ i < base + bytes.length then bytes.getD (i - base) 0 else s.rx i := by
  by_cases hi : i < 14
  · by_cases hb : base ≤ i
    · by_cases hl : i < base + bytes.length
      · simp [State.rx, fillBuffer, hi, hb, hl, show i - base < bytes.length by omega]
      · simp [State.rx, fillBuffer, hi, hb, hl, show bytes.length ≤ i - base by omega]
    · simp [State.rx, fillBuffer, hi, hb]
  · simp [State.rx, hi]

/-- After the same bytes are read in both, they agree on them too. -/
theorem rx_fillBuffer_agree {s t : State} {n base : Nat} {bytes : List Byte} (h : ∀ i < n, s.rx i = t.rx i) :
    ∀ i < (if base ≤ n then max n (base + bytes.length) else n),
      State.rx { s with rxbuf := fillBuffer s.rxbuf base bytes } i =
        State.rx { t with rxbuf := fillBuffer t.rxbuf base bytes } i := by
  intro i hi
  simp only [rx_fillBuffer]
  split_ifs with hread
  · rfl
  · by_cases h14 : i < 14
    · exact h i (by split at hi <;> omega)
    · simp [State.rx, h14]

/-- Taking a reply from the front is a public update. -/
theorem publicUpdate_replies (rest : List Reply) : PublicUpdate fun u => { u with replies := rest } :=
  ⟨fun _ => rfl, fun _ => rfl, fun _ => rfl, fun _ => rfl⟩

/-- A write's answer is taken alike in both. -/
theorem State.Agree.awaitWrite {k : Written} {s t : State} (h : State.Agree k s t) :
    Progress.Alike k s.awaitWrite t.awaitWrite := by
  unfold State.awaitWrite
  rw [← h.replies_eq]
  cases s.replies with
  | nil => exact .stay
  | cons r rest =>
    have htaken := h.update (publicUpdate_replies rest)
    dsimp only
    cases mapStatus r.status with
    | ok => exact .go htaken
    | _ => exact .stop (htaken.raise_erased _)

/-- What a failing read leaves in the buffer is erased. -/
theorem erased_raise_spoilRead (s : State) (len base : Nat) (status : Status) :
    ((s.spoilRead len base).raise status).erased = (s.raise status).erased := rfl

/-- What the buffer holds is erased. -/
theorem erased_rxbuf (s : State) (buf : Vector Byte 14) : State.erased { s with rxbuf := buf } = s.erased := rfl

/-- A read's answer is taken alike in both, whatever a failing one leaves in the buffer. -/
theorem State.Agree.awaitRead {k : Written} {s t : State} (h : State.Agree k s t) (len base : Nat) :
    Progress.Alike (k.after (.read len base)) (s.awaitRead len base) (t.awaitRead len base) := by
  unfold State.awaitRead
  rw [← h.replies_eq]
  cases s.replies with
  | nil => exact .stay
  | cons r rest =>
    have htaken := h.update (publicUpdate_replies rest)
    dsimp only
    cases mapStatus r.status with
    | ok =>
      by_cases hlen : r.bytes.length = len
      · subst hlen
        simp only [if_true]
        refine .go (State.Agree.mk ?_ (rx_fillBuffer_agree htaken.rx) h.mirror h.v)
        rw [erased_rxbuf { s with replies := rest }, erased_rxbuf { t with replies := rest }, htaken.erased]
      · simp only [if_neg hlen]
        exact .refuse _
    | _ =>
      refine .stop ?_
      rw [erased_raise_spoilRead, erased_raise_spoilRead, htaken.raise_erased]

/-- A register read's answer is taken alike in both, on into the mirror. -/
theorem State.Agree.awaitReadMirror {k : Written} {s t : State} (h : State.Agree k s t) :
    Progress.Alike (k.after .readMirror) s.awaitReadMirror t.awaitReadMirror := by
  have hread := h.awaitRead 1 0
  unfold State.awaitReadMirror
  generalize s.awaitRead 1 0 = p at hread ⊢
  generalize t.awaitRead 1 0 = q at hread ⊢
  cases hread with
  | @go s' t' h' =>
    have hrx : ∀ i < max k.rx 1, s'.rx i = t'.rx i := by simpa [Written.after] using h'.rx
    exact .go ⟨h'.erased, hrx, fun _ => hrx 0 (by omega), h'.v⟩
  | stay => exact .stay
  | stop h' => exact .stop h'
  | refuse r => exact .refuse r

/-- A delay returns alike in both. -/
theorem State.Agree.awaitDelay {k : Written} {s t : State} (h : State.Agree k s t) :
    Progress.Alike k s.awaitDelay t.awaitDelay := by
  unfold State.awaitDelay
  rw [← h.delayReturns_eq]
  cases s.delayReturns with
  | zero => exact .stay
  | succ n =>
    exact .go (h.update (f := fun u => { u with delayReturns := n })
      ⟨fun _ => rfl, fun _ => rfl, fun _ => rfl, fun _ => rfl⟩)

/-- init() returns alike in both. -/
theorem State.Agree.awaitInit {k : Written} {s t : State} (h : State.Agree k s t) :
    Progress.Alike k s.awaitInit t.awaitInit := by
  unfold State.awaitInit
  rw [← h.initReturns_eq]
  cases s.initReturns with
  | zero => exact .stay
  | succ n =>
    exact .go (h.update (f := fun u => { u with initReturns := n, inited := true })
      ⟨fun _ => rfl, fun _ => rfl, fun _ => rfl, fun _ => rfl⟩)

/-- A check on the same loaded datapath ends alike in both. -/
theorem State.Agree.runCheck {k : Written} {s t : State} (h : State.Agree k s t) {source : CheckSource}
    (hm : k.covers (.check source) = true) (hload : s.crc = t.crc) :
    Progress.Alike k (s.runCheck source) (t.runCheck source) := by
  unfold State.runCheck
  rw [hload, (h.checkValue_eq hm).2]
  have hspoiled : State.Agree k s.spoilCrc t.spoilCrc := ⟨h.erased, h.rx, h.mirror, h.v⟩
  cases checkStatus (CrcRegs.iterateN Config.crcIter t.crc) (t.checkCrc source) with
  | ok => exact .go hspoiled
  | _ => exact .stop (hspoiled.raise_erased _)

/-- A step that reads only what has been written is left alike in both. -/
theorem State.Agree.leave {k : Written} {s t : State} (h : State.Agree k s t) {m : Micro} {rest : List Micro}
    (ht : s.todo = m :: rest) (hload : State.SameLoad s t) (hm : k.covers m = true) :
    Progress.Alike (k.after m) (s.leave m) (t.leave m) := by
  cases m with
  | write stop bytes => exact h.awaitWrite
  | writeMirror => exact h.awaitWrite
  | read len base => exact h.awaitRead len base
  | readMirror => exact h.awaitReadMirror
  | delay source => exact h.awaitDelay
  | init => exact h.awaitInit
  | check source => exact h.runCheck hm (hload source rest ht)
  | defaults => exact .go (h.update (f := State.setDefaults) ⟨fun _ => rfl, fun _ => rfl, fun _ => rfl, fun _ => rfl⟩)
  | times l => exact .go (h.update (f := (State.setTimes · l)) ⟨fun _ => rfl, fun _ => rfl, fun _ => rfl, fun _ => rfl⟩)
  | mode m => exact .go (h.update (f := (State.setMode · m)) ⟨fun _ => rfl, fun _ => rfl, fun _ => rfl, fun _ => rfl⟩)
  | selectV l =>
    have hv : selectResolution s.regmirror l = selectResolution t.regmirror l := by rw [h.mirror hm]
    exact .go (State.Agree.mk h.erased h.rx h.mirror fun _ => hv)
  | merge =>
    obtain ⟨hmirror, hv⟩ : k.mirror = true ∧ k.v = true := Bool.and_eq_true_iff.mp hm
    have hmerged : mergeRegister s.regmirror s.vArg = mergeRegister t.regmirror t.vArg := by rw [h.mirror hmirror, h.v hv]
    exact .go (State.Agree.mk h.erased h.rx (fun _ => hmerged) h.v)

/-! ### Two runs -/

/-- Two runs of a path that reads only what has been written look alike where they end or wait. -/
theorem State.Agree.run {path : List Micro} {k : Written} {s t : State} (h : State.Agree k s t)
    (hload : State.SameLoad s t) (ht : s.todo = path) (hk : k.coversPath path s.answer = true) :
    erasedOutcome (s.run path) = erasedOutcome (t.run path) := by
  induction path generalizing k s t with
  | nil => exact congrArg Host.Outcome.next h.erased
  | cons m rest ih =>
    obtain ⟨hm, hrest⟩ : k.covers m = true ∧ (k.after m).coversPath rest s.answer = true := by
      simpa [Written.coversPath] using hk
    have hleave := h.leave ht hload hm
    cases hs : s.leave m <;> cases ht' : t.leave m <;> rw [hs, ht'] at hleave <;> cases hleave
    case go.go s' t' h' =>
      obtain ⟨-, -, -, -, hanswer, -⟩ := leave_go hs
      have hnext : State.Agree (k.after m) { s' with todo := rest } { t' with todo := rest } :=
        h'.update (f := fun u => { u with todo := rest }) ⟨fun _ => rfl, fun _ => rfl, fun _ => rfl, fun _ => rfl⟩
      obtain ⟨henter, hload'⟩ := hnext.enter (by rw [← hanswer] at hrest; exact hrest)
      simpa [State.run, hs, ht'] using ih henter hload' (by simp) (by simpa [hanswer] using hrest)
    case stay.stay => simpa [State.run, hs, ht', erasedOutcome] using h.erased
    case stop.stop h' => simpa [State.run, hs, ht', erasedOutcome] using h'
    case refuse.refuse => simp [State.run, hs, ht']

/-- Two states that agree but for transient registers, the position and the answer kind start an instruction in agreement. -/
theorem State.agree_startFor {s t : State} (h : s.erasedAtStart = t.erasedAtStart) (i : Instr) :
    State.Agree (Written.atStart i) (s.startFor i) (t.startFor i) ∧ State.SameLoad (s.startFor i) (t.startFor i) := by
  have hmode : pathOf s.session.acquisitionMode i = pathOf t.session.acquisitionMode i :=
    (congrArg (fun u : State => pathOf u.session.acquisitionMode i) h :)
  have hpath := coversPath_pathOf t.session.acquisitionMode i
  unfold State.startFor
  rw [hmode]
  generalize pathOf t.session.acquisitionMode i = path at hpath ⊢
  refine State.Agree.enter ⟨congrArg (fun u : State => { u with todo := path.1, answer := path.2 }) h, ?_, ?_, ?_⟩ hpath
  · cases i <;> exact fun j hj => absurd hj (Nat.not_lt_zero j)
  · cases i <;> exact fun hv => by cases hv
  · cases i with
    | writeRegister v => exact fun _ => rfl
    | _ => exact fun hv => by cases hv

/-- Settles O52: the two starts agree, and every path reads only what it has written. -/
theorem transientRegistersDoNotMatter : Obligations.TransientRegistersDoNotMatter := by
  intro i s t h
  have hinited : s.inited = t.inited := (congrArg State.inited h :)
  rw [exec_eq_andRun_startOf, exec_eq_andRun_startOf]
  by_cases hinit : i = .init ∧ s.inited = true
  · obtain ⟨rfl, hs⟩ := hinit
    rw [startOf_init_of_inited hs, startOf_init_of_inited (hinited ▸ hs)]
  by_cases hbus : needsInit i = true ∧ s.inited = false
  · obtain ⟨hi, hs⟩ := hbus
    rw [startOf_of_not_inited hi hs, startOf_of_not_inited hi (hinited ▸ hs)]
  have hinit' : i = .init → s.inited = false := by simpa using hinit
  have hbus' : needsInit i = true → s.inited = true := by simpa using hbus
  rw [startOf_of_booted hinit' hbus', startOf_of_booted (hinited ▸ hinit') (hinited ▸ hbus')]
  obtain ⟨hagree, hload⟩ := State.agree_startFor h i
  have hk : (Written.atStart i).coversPath (s.startFor i).todo (s.startFor i).answer = true := by
    simpa [State.startFor, State.start] using coversPath_pathOf s.session.acquisitionMode i
  simpa [andRun, ← hagree.todo_eq] using hagree.run hload rfl hk

end Sys2Proof.Machine
end

section
/-! PROOFS. What a run does to the other agents: it adds calls at the end, uses answers from the front, and leaves the port, the
latch and the responses given (20_memory.md R62, R65, R67). -/

namespace Sys2Proof.Machine

/-- What the other agents see of going on from `s` to `t`. -/
structure State.ContinuesFrom (t s : State) : Prop where
  outside : s.SameOutside t
  answers : t.UsesAnswersOf s
  calls : s.calls <+: t.calls

theorem State.SameOutside.trans {s t u : State} (h : s.SameOutside t) (k : t.SameOutside u) : s.SameOutside u := by
  obtain ⟨hport, hframes, hreq, hpin, hresponses⟩ := h
  obtain ⟨kport, kframes, kreq, kpin, kresponses⟩ := k
  exact ⟨kport.trans hport, kframes.trans hframes, kreq.trans hreq, kpin.trans hpin, kresponses.trans hresponses⟩

theorem State.ContinuesFrom.refl (s : State) : s.ContinuesFrom s :=
  ⟨⟨rfl, rfl, rfl, rfl, rfl⟩, State.UsesAnswersOf.refl s, List.prefix_rfl⟩

theorem State.ContinuesFrom.trans {s t u : State} (h : t.ContinuesFrom s) (k : u.ContinuesFrom t) : u.ContinuesFrom s :=
  ⟨h.outside.trans k.outside, h.answers.trans k.answers, h.calls.trans k.calls⟩

/-- Entering a step adds its call at the end; entering the end of a path makes none. -/
theorem State.calls_prefix_enter (s : State) : s.calls <+: s.enter.calls := by
  cases ht : s.todo with
  | nil => simp [State.enter_nil ht]
  | cons m rest => simp [State.enter_cons ht]

theorem State.enter_continuesFrom (s : State) : s.enter.ContinuesFrom s :=
  ⟨by simp [State.SameOutside], ⟨⟨[], by simp⟩, by simp, by simp⟩, s.calls_prefix_enter⟩

/-- Going on from one step into the next. -/
theorem leave_go_enter_continuesFrom {s t : State} {m : Micro} (rest : List Micro) (h : s.leave m = .go t) :
    ({ t with todo := rest }.enter).ContinuesFrom s := by
  obtain ⟨houtside, hanswers, hcalls, -⟩ := leave_go h
  have left : State.ContinuesFrom { t with todo := rest } s := ⟨houtside, hanswers, hcalls ▸ List.prefix_rfl⟩
  exact left.trans (State.enter_continuesFrom _)

theorem leave_stop_continuesFrom {s t : State} {m : Micro} (h : s.leave m = .stop t) : t.ContinuesFrom s := by
  obtain ⟨houtside, hanswers, hcalls, -⟩ := leave_stop h
  exact ⟨houtside, hanswers, hcalls ▸ List.prefix_rfl⟩

/-- Wherever a run ends or waits, it has continued from where it began. -/
theorem State.run_continuesFrom {path : List Micro} {s t : State} (hr : s.run path = .next t) : t.ContinuesFrom s :=
  State.run_induction (P := fun u _ => u.ContinuesFrom s) (Q := fun u => u.ContinuesFrom s)
    (fun _ _ rest _ hu hl => hu.trans (leave_go_enter_continuesFrom rest hl))
    (fun _ _ _ _ hu hl => hu.trans (leave_stop_continuesFrom hl))
    (fun _ _ _ hu _ => hu)
    (fun _ hu => hu)
    path s t (State.ContinuesFrom.refl s) hr

/-- Starting an instruction, V set or not, enters its first step. -/
theorem State.start_continuesFrom (s : State) (v : Byte) (path : List Micro) (k : Answer) :
    (State.start { s with vArg := v } path k).ContinuesFrom s := by
  obtain ⟨houtside, hanswers, hcalls⟩ := State.enter_continuesFrom { s with vArg := v, todo := path, answer := k }
  exact ⟨houtside, hanswers, hcalls⟩

theorem exec_continuesFrom {i : Instr} {s t : State} (h : exec i s = .next t) : t.ContinuesFrom s := by
  obtain ⟨u, hu, hr⟩ := exec_next h
  obtain ⟨-, v, rfl⟩ := startOf_next hu
  exact (s.start_continuesFrom v _ _).trans (State.run_continuesFrom hr)

/-- Settles O48: starting an instruction enters its first step, and from there its run continues. -/
theorem instructionsOnlyAddCallsAndUseAnswers : Obligations.InstructionsOnlyAddCallsAndUseAnswers := by
  intro i s t h
  obtain ⟨houtside, ⟨hreplies, hdelays, hinits⟩, made, hmade⟩ := exec_continuesFrom h
  exact ⟨⟨made, hmade.symm⟩, hreplies, hdelays, hinits, houtside⟩

/-- Settles O8: a block that is not idle gives its response or goes on with its request, and neither takes a packet. -/
theorem busyBlockTakesNoRequest : Obligations.BusyBlockTakesNoRequest := by
  intro s t hpin hidle hstep
  rcases step_cases s with ⟨hpin', -⟩ | ⟨-, hs, -⟩ | ⟨-, hs, -⟩ | ⟨-, -, e⟩ | ⟨-, -, e⟩
  · exact absurd (hpin.symm.trans hpin') (by decide)
  · exact absurd hs hidle
  · exact absurd hs hidle
  · cases e.symm.trans hstep
    exact ⟨rfl, rfl, rfl⟩
  · obtain ⟨m, rest, -, -, hr⟩ := State.resume_next (e.symm.trans hstep)
    obtain ⟨hport, hframes, hreq, -⟩ := (State.run_continuesFrom hr).outside
    exact ⟨hport, hframes, hreq⟩

end Sys2Proof.Machine
end

section
/-! PROOFS. A run that meets a T_OK read of another length than asked is refused there (20_memory.md R59). -/

namespace Sys2Proof.Machine

/-- How many bytes a step asks the transport for, if it reads. -/
def Micro.asks : Micro → Option Nat
  | .read len _ => some len
  | .readMirror => some 1
  | _ => none

/-- With these replies and so many delays that return, the path gets by T_OK answers to a read of `asked` bytes that is answered T_OK with
`got` bytes, another number. -/
inductive MeetsWrongLength (asked got : Nat) : List Micro → List Reply → Nat → Prop
  | here {m path y rest d} (hm : m.asks = some asked) (hgot : y.length = got) (hne : got ≠ asked) :
      MeetsWrongLength asked got (m :: path) (⟨.ok, y⟩ :: rest) d
  | read {m path n b rest d} (hm : m.asks = some n) (hb : b.length = n) (h : MeetsWrongLength asked got path rest d) :
      MeetsWrongLength asked got (m :: path) (⟨.ok, b⟩ :: rest) d
  | write {m path x rest d} (hm : m.phase = .wCall) (h : MeetsWrongLength asked got path rest d) :
      MeetsWrongLength asked got (m :: path) (⟨.ok, x⟩ :: rest) d
  | delay {m path replies d} (hm : m.phase = .dCall) (h : MeetsWrongLength asked got path replies d) :
      MeetsWrongLength asked got (m :: path) replies (d + 1)
  | localStep {m path replies d} (hm : m.phase = .localStep) (h : MeetsWrongLength asked got path replies d) :
      MeetsWrongLength asked got (m :: path) replies d

/-! ### Leaving a step by its answer -/

/-- A read answered T_OK with another number of bytes than asked is refused. -/
theorem leave_read_of_wrongLength {s : State} {m : Micro} {n : Nat} {y : List Byte} {rest : List Reply}
    (hm : m.asks = some n) (hr : s.replies = ⟨.ok, y⟩ :: rest) (hy : y.length ≠ n) :
    s.leave m = .refuse (.readLength n y.length) := by
  cases m with
  | read len base => cases hm; simp [State.leave, State.awaitRead, hr, mapStatus, hy]
  | readMirror => cases hm; simp [State.leave, State.awaitReadMirror, State.awaitRead, hr, mapStatus, hy]
  | _ => cases hm

/-- A read answered T_OK with the bytes asked for goes on. -/
theorem leave_read_of_ok {s : State} {m : Micro} {n : Nat} {b : List Byte} {rest : List Reply}
    (hm : m.asks = some n) (hr : s.replies = ⟨.ok, b⟩ :: rest) (hb : b.length = n) :
    ∃ t, s.leave m = .go t ∧ t.replies = rest ∧ t.delayReturns = s.delayReturns := by
  cases m with
  | read len base => cases hm; simp [State.leave, State.awaitRead, hr, mapStatus, hb]
  | readMirror => cases hm; simp [State.leave, State.awaitReadMirror, State.awaitRead, hr, mapStatus, hb]
  | _ => cases hm

/-- A write answered T_OK goes on. -/
theorem leave_write_of_ok {s : State} {m : Micro} {x : List Byte} {rest : List Reply}
    (hm : m.phase = .wCall) (hr : s.replies = ⟨.ok, x⟩ :: rest) : s.leave m = .go { s with replies := rest } := by
  cases m with
  | write stop bytes => simp [State.leave, State.awaitWrite, hr, mapStatus]
  | writeMirror => simp [State.leave, State.awaitWrite, hr, mapStatus]
  | _ => cases hm

/-- A delay that returns goes on. -/
theorem leave_delay_of_return {s : State} {m : Micro} {d : Nat} (hm : m.phase = .dCall) (hd : s.delayReturns = d + 1) :
    s.leave m = .go { s with delayReturns := d } := by
  cases m with
  | delay source => simp [State.leave, State.awaitDelay, hd]
  | _ => cases hm

/-- A LOCAL step uses no answer. -/
theorem leave_local_answers {s t : State} {m : Micro} (hm : m.phase = .localStep) (hl : s.leave m = .go t) :
    t.replies = s.replies ∧ t.delayReturns = s.delayReturns := by
  cases m with
  | defaults => cases hl; exact ⟨rfl, rfl⟩
  | times l => cases hl; exact ⟨rfl, rfl⟩
  | mode k => cases hl; exact ⟨rfl, rfl⟩
  | selectV l => cases hl; exact ⟨rfl, rfl⟩
  | merge => cases hl; exact ⟨rfl, rfl⟩
  | _ => cases hm

/-! ### Runs and instructions -/

/-- A run that meets a read of the wrong length is refused there, with both numbers. -/
theorem MeetsWrongLength.run {asked got : Nat} {path : List Micro} {replies : List Reply} {d : Nat}
    (h : MeetsWrongLength asked got path replies d) {s : State} (hr : s.replies = replies) (hd : s.delayReturns = d) :
    s.run path = .refused (.readLength asked got) := by
  induction h generalizing s with
  | here hm hgot hne =>
    subst hgot
    simp [State.run, leave_read_of_wrongLength hm hr hne]
  | read hm hb _ ih =>
    obtain ⟨t, hl, ht, htd⟩ := leave_read_of_ok hm hr hb
    simpa [State.run, hl] using ih (by simpa using ht) (by simpa [htd] using hd)
  | write hm _ ih => simpa [State.run, leave_write_of_ok hm hr] using ih (by simp) (by simpa using hd)
  | delay hm _ ih => simpa [State.run, leave_delay_of_return hm hd] using ih (by simpa using hr) (by simp)
  | localStep hm _ ih =>
    obtain ⟨t, hl⟩ := leave_of_local hm s
    obtain ⟨ht, htd⟩ := leave_local_answers hm hl
    simpa [State.run, hl] using ih (by simpa [ht] using hr) (by simpa [htd] using hd)

/-- A bus user whose path meets a read of the wrong length is refused. -/
theorem exec_of_meetsWrongLength {i : Instr} {s : State} {mode : AcqMode} {asked got d : Nat} {replies : List Reply}
    (hs : s.inited = true) (hi : needsInit i = true) (hmode : s.session.acquisitionMode = mode)
    (hr : s.replies = replies) (hd : s.delayReturns = d)
    (h : MeetsWrongLength asked got (pathOf mode i).1 replies d) : exec i s = .refused (.readLength asked got) := by
  have started : startOf i s = .next (s.startFor i) := startOf_of_booted (by rintro rfl; cases hi) fun _ => hs
  have htodo : (s.startFor i).todo = (pathOf mode i).1 := by simp [State.startFor, State.start, hmode]
  rw [exec_eq_andRun_startOf, started, andRun, htodo]
  exact h.run (by simpa [State.startFor, State.start] using hr) (by simpa [State.startFor, State.start] using hd)

/-! ### The paths that read -/

section Paths

variable {d : Nat} {x y : List Byte} {rest : List Reply}

/-- `ReadRegister` at the front of a path. -/
theorem meetsWrongLength_readRegister (path : List Micro) (hy : y.length ≠ 1) :
    MeetsWrongLength 1 y.length (readRegisterSteps ++ path) (⟨.ok, x⟩ :: ⟨.ok, y⟩ :: rest) d :=
  .write rfl (.here rfl rfl hy)

/-- A measurement cycle in HOLD at the front of a path. -/
theorem meetsWrongLength_hold (q : Quantity) (path : List Micro) (hy : y.length ≠ 3) :
    MeetsWrongLength 3 y.length (acquireCycle q .hold ++ path) (⟨.ok, x⟩ :: ⟨.ok, y⟩ :: rest) d :=
  .write rfl (.here rfl rfl hy)

/-- A measurement cycle in POLL at the front of a path, its delay returning. -/
theorem meetsWrongLength_poll (q : Quantity) (path : List Micro) (hy : y.length ≠ 3) :
    MeetsWrongLength 3 y.length (acquireCycle q .poll ++ path) (⟨.ok, x⟩ :: ⟨.ok, y⟩ :: rest) (d + 1) :=
  .write rfl (.delay rfl (.here rfl rfl hy))

/-- The first serial-number cycle at the front of a path. -/
theorem meetsWrongLength_serialFirst (path : List Micro) (hy : y.length ≠ 8) :
    MeetsWrongLength 8 y.length (serialFirstCycle ++ path) (⟨.ok, x⟩ :: ⟨.ok, y⟩ :: rest) d :=
  .write rfl (.here rfl rfl hy)

/-- The second serial-number cycle at the front of a path. -/
theorem meetsWrongLength_serialSecond (path : List Micro) (hy : y.length ≠ 6) :
    MeetsWrongLength 6 y.length (serialSecondCycle ++ path) (⟨.ok, x⟩ :: ⟨.ok, y⟩ :: rest) d :=
  .write rfl (.here rfl rfl hy)

end Paths

/-- A measurement request uses the bus. -/
theorem needsInit_measurement (q : Quantity) : needsInit (measurement q) = true := by cases q <;> rfl

/-- A measurement request walks its acquisition and answers with the raw value. -/
theorem pathOf_measurement (mode : AcqMode) (q : Quantity) :
    pathOf mode (measurement q) = (acquireSteps q mode, .rawValue) := by cases q <;> rfl

/-- Settles O34: every path that reads meets the wrong length at its first read, and READ_SERIAL and SET_RESOLUTION at their second. -/
theorem readOfWrongLengthIsRefused : Obligations.ReadOfWrongLengthIsRefused := by
  refine ⟨fun s x y rest hs hr => ⟨fun hy => ⟨?_, ?_, fun v => ?_, fun l => ?_⟩, fun hy => ⟨?_, ?_, fun hmode q => ?_, ?_⟩,
    fun hy => ⟨?_, ?_⟩, fun hy => ?_⟩, ?_, ?_⟩
  · exact exec_of_meetsWrongLength hs rfl rfl hr rfl (meetsWrongLength_readRegister [] hy)
  · exact exec_of_meetsWrongLength hs rfl rfl hr rfl (meetsWrongLength_readRegister [] hy)
  · exact exec_of_meetsWrongLength hs rfl rfl hr rfl (meetsWrongLength_readRegister _ hy)
  · exact exec_of_meetsWrongLength hs rfl rfl hr rfl (.localStep rfl (meetsWrongLength_readRegister _ hy))
  · exact exec_of_meetsWrongLength hs rfl rfl hr rfl (meetsWrongLength_hold .temperature [] hy)
  · exact exec_of_meetsWrongLength hs rfl rfl hr rfl (meetsWrongLength_hold .humidity [] hy)
  · refine exec_of_meetsWrongLength hs (needsInit_measurement q) hmode hr rfl ?_
    exact pathOf_measurement .hold q ▸ meetsWrongLength_hold q _ hy
  · intro d hd
    refine ⟨?_, ?_, fun hmode q => ?_⟩
    · exact exec_of_meetsWrongLength hs rfl rfl hr hd (meetsWrongLength_poll .temperature [] hy)
    · exact exec_of_meetsWrongLength hs rfl rfl hr hd (meetsWrongLength_poll .humidity [] hy)
    · refine exec_of_meetsWrongLength hs (needsInit_measurement q) hmode hr hd ?_
      exact pathOf_measurement .poll q ▸ meetsWrongLength_poll q _ hy
  · exact exec_of_meetsWrongLength hs rfl rfl hr rfl (meetsWrongLength_serialFirst _ hy)
  · exact exec_of_meetsWrongLength hs rfl rfl hr rfl (meetsWrongLength_serialFirst [] hy)
  · exact exec_of_meetsWrongLength hs rfl rfl hr rfl (meetsWrongLength_serialSecond [] hy)
  · intro s x y batch z rest hs hbatch hr hz
    exact exec_of_meetsWrongLength hs rfl rfl hr rfl
      (.write rfl (.read rfl hbatch (meetsWrongLength_serialSecond serialChecks hz)))
  · intro s l x y z r1 rest hs hr hz
    exact exec_of_meetsWrongLength hs rfl rfl hr rfl
      (.localStep rfl (.write rfl (.read rfl rfl (.localStep rfl (meetsWrongLength_readRegister _ hz)))))

end Sys2Proof.Machine
end

section
/-! PROOFS. Decoder, encoder and opcode table agree: on the argument bits of a request word, and on the bytes of a frame
(30_encoding.md R80 to R97). -/

namespace Sys2Proof

/-! ### Request words -/

/-- A request word built from a code and an argument decodes as these do. -/
@[simp] theorem decode_requestWord (op : BitVec 4) (arg : BitVec 24) :
    decode (.request (requestWord op arg)) = decodeOp op arg := by
  simp only [decode, decodeRequest, reserved_requestWord, requestOp_requestWord, requestArg_requestWord, if_true]

/-- An accepted request word has bits 27:24 zero, and its code and argument are accepted. -/
theorem decodeOp_of_decode_request {w : RequestWord} {i : Instr} (h : decode (.request w) = .ok i) :
    w.extractLsb' 24 4 = 0 ∧ decodeOp (requestOp w) (requestArg w) = .ok i := by
  simp only [decode, decodeRequest] at h
  split at h
  · exact ⟨‹_›, h⟩
  · cases h

theorem whenZero_of_eq_zero {unused : BitVec 24} (h : unused = 0) (op : BitVec 4) (arg : BitVec 24) (i : Instr) :
    whenZero unused op arg i = .ok i := if_pos h

/-- A byte is accepted, and read back, where one byte of the argument is named. -/
theorem whenZero_byte (v : Byte) (op : BitVec 4) (arg : BitVec 24) (f : Byte → Instr) :
    whenZero (v.zeroExtend 24 &&& 0xFFFF00) op arg (f ((v.zeroExtend 24).extractLsb' 0 8)) = .ok (f v) := by
  rw [whenZero_of_eq_zero (high16_zeroExtend v), low8_zeroExtend]

/-- Settles O1: request words are taken apart into code and argument, and every field of an argument is read where it was put. -/
theorem decodeOfEncodeIsTheInstruction : Obligations.DecodeOfEncodeIsTheInstruction := by
  intro i _
  cases i with
  | setMode m => cases m <;> rfl
  | setResolution l => cases l <;> rfl
  | writeRegister v => exact (decode_requestWord ..).trans (whenZero_byte v _ _ .writeRegister)
  | writeCommand c => exact (decode_requestWord ..).trans (whenZero_byte c _ _ .writeCommand)
  | writeCommandNoStop c => exact (decode_requestWord ..).trans (whenZero_byte c _ _ .writeCommandNoStop)
  | crcCheck value crc => simp [encode, decodeOp, value_append, crc_append]
  | _ => rfl

theorem AcqMode.bit_ofBit (m : BitVec 1) : (AcqMode.ofBit m).bit = m := by revert m; decide

theorem Level.code_ofCode (l : BitVec 2) : (Level.ofCode l).code = l := by revert l; decide

/-- An argument whose bits from `n` on are zero is its lower `n` bits. -/
theorem zeroExtend_low {n : Nat} {arg unused : BitVec 24} (hu : ∀ j : Fin 24, n ≤ j.val → unused.getLsbD j = true)
    (h : arg &&& unused = 0) : (arg.extractLsb' 0 n).zeroExtend 24 = arg := by
  apply BitVec.eq_of_getLsbD_eq
  intro j hj
  by_cases hn : j < n
  · simp [hj, hn]
  · have high : (arg &&& unused).getLsbD j = false := by rw [h]; exact BitVec.getLsbD_zero
    have zero : arg.getLsbD j = false := by simpa [hu ⟨j, hj⟩ (Nat.le_of_not_lt hn)] using high
    simp [hn, zero]

/-- The two fields of a CRC_CHECK argument are all of it. -/
theorem value_append_crc (arg : BitVec 24) : (arg.extractLsb' 8 16 ++ arg.extractLsb' 0 8 : BitVec 24) = arg := by
  rw [BitVec.extractLsb'_append_extractLsb'_eq_extractLsb' (by rfl)]
  exact BitVec.extractLsb'_eq_self

/-- An accepted code and argument are those of the encoding. -/
theorem encode_of_decodeOp {op : BitVec 4} {arg : BitVec 24} {i : Instr} (h : decodeOp op arg = .ok i) :
    encode i = .request (requestWord op arg) := by
  have byte (hz : arg &&& 0xFFFF00 = 0) : (arg.extractLsb' 0 8).zeroExtend 24 = arg := zeroExtend_low (by decide) hz
  simp only [decodeOp, ite_eq_iff] at h
  rcases h with ⟨rfl, h⟩ | ⟨-, ⟨rfl, h⟩ | ⟨-, ⟨rfl, h⟩ | ⟨-, ⟨rfl, h⟩ | ⟨-, ⟨rfl, h⟩ | ⟨-, ⟨rfl, h⟩ | ⟨-,
    ⟨rfl, h⟩ | ⟨-, ⟨rfl, h⟩ | ⟨-, ⟨rfl, h⟩ | ⟨-, ⟨rfl, h⟩ | ⟨-, ⟨rfl, h⟩ | ⟨-, ⟨rfl, h⟩ | ⟨-, h⟩⟩⟩⟩⟩⟩⟩⟩⟩⟩⟩⟩
  · obtain ⟨rfl, rfl⟩ := whenZero_ok h; rfl
  · obtain ⟨rfl, rfl⟩ := whenZero_ok h; rfl
  · obtain ⟨hz, rfl⟩ := whenZero_ok h; rw [encode, AcqMode.bit_ofBit, zeroExtend_low (by decide) hz]
  · obtain ⟨hz, rfl⟩ := whenZero_ok h; rw [encode, Level.code_ofCode, zeroExtend_low (by decide) hz]
  · obtain ⟨rfl, rfl⟩ := whenZero_ok h; rfl
  · obtain ⟨rfl, rfl⟩ := whenZero_ok h; rfl
  · obtain ⟨rfl, rfl⟩ := whenZero_ok h; rfl
  · obtain ⟨hz, rfl⟩ := whenZero_ok h; rw [encode, byte hz]
  · obtain ⟨rfl, rfl⟩ := whenZero_ok h; rfl
  · cases h; rw [encode, value_append_crc]
  · obtain ⟨hz, rfl⟩ := whenZero_ok h; rw [encode, byte hz]
  · obtain ⟨hz, rfl⟩ := whenZero_ok h; rw [encode, byte hz]
  · cases h

/-! ### Frames -/

/-- An accepted frame is that of the encoding. -/
theorem encode_of_decodeFrame {bytes : List Byte} {i : Instr} (h : decodeFrame bytes = .ok i) : encode i = .frame bytes := by
  unfold decodeFrame at h
  split at h
  case h_1 b => split_ifs at h <;> cases h <;> subst b <;> rfl
  case h_2 hi lo =>
    split_ifs at h with hreg hfirst hlast <;> cases h
    · rw [hreg]; rfl
    · rw [encode, ← hfirst, splitOpcode_append]
    · rw [encode, ← hlast, splitOpcode_append]
  case h_3 => cases h

/-- Settles O2: the code and argument of an accepted request word make up the word, and an accepted frame is the row's own. -/
theorem acceptedPacketIsTheEncoding : Obligations.AcceptedPacketIsTheEncoding := by
  intro p i h
  cases p with
  | request w =>
    obtain ⟨hzero, hop⟩ := decodeOp_of_decode_request h
    rw [encode_of_decodeOp hop, requestWord_fields hzero]
  | frame bytes => exact encode_of_decodeFrame h

/-- Only the twelve host requests are decoded from a request word (30_encoding.md R81). -/
theorem isRequest_of_decode_request {w : RequestWord} {i : Instr} (h : decode (.request w) = .ok i) :
    Machine.isRequest i = true := by
  have he := acceptedPacketIsTheEncoding _ i h
  cases i with
  | busReset => cases he
  | busReadTempHold => cases he
  | busReadTempPoll => cases he
  | busReadHumidityHold => cases he
  | busReadHumidityPoll => cases he
  | busReadSerialFirst8 => cases he
  | busReadSerialLast6 => cases he
  | busWriteUserRegister d => cases he
  | busReadUserRegister => cases he
  | _ => rfl

/-! ### The opcode table -/

theorem wf_request_of_row {w : RequestWord} {r : Row 32} (hr : r ∈ requestRows) (h : r.covers w = true) :
    (Packet.request w).wf = true := List.any_eq_true.2 ⟨r, hr, h⟩

theorem wf_frame_of_row {hi lo : Byte} {r : Row 16} (hr : r ∈ frameRows16) (h : r.covers (hi ++ lo) = true) :
    (Packet.frame [hi, lo]).wf = true := List.any_eq_true.2 ⟨r, hr, h⟩

/-- The encoding of an instruction is covered by its row, so it is well formed. -/
theorem wf_encode (i : Instr) : (encode i).wf = true := by
  cases i with
  | setMode m => cases m <;> rfl
  | setResolution l => cases l <;> rfl
  | writeRegister v => exact wf_request_of_row (by decide) (Laws.Covered.writeRegister v)
  | crcCheck value crc => exact wf_request_of_row (by decide) (Laws.Covered.crcCheck value crc)
  | writeCommand c => exact wf_request_of_row (by decide) (Laws.Covered.writeCommand c)
  | writeCommandNoStop c => exact wf_request_of_row (by decide) (Laws.Covered.writeCommandNoStop c)
  | busWriteUserRegister d => exact wf_frame_of_row (by decide) (Laws.Covered.busWriteUserRegister d)
  | _ => rfl

/-- Every request row fixes bits 31:24 and leaves the argument pattern zero; what its mask has of the argument must be zero. -/
theorem fields_of_row {r : Row 32} (hr : r ∈ requestRows) {w : RequestWord} (h : r.covers w = true) :
    w.extractLsb' 24 4 = 0 ∧ requestOp w = requestOp r.pattern ∧ requestArg w &&& requestArg r.mask = 0 := by
  have fixed : ∀ r ∈ requestRows, r.mask.extractLsb' 24 4 = BitVec.allOnes 4 ∧ r.pattern.extractLsb' 24 4 = 0 ∧
      requestOp r.mask = BitVec.allOnes 4 ∧ requestArg r.pattern = 0 := by decide
  obtain ⟨hmask, hpattern, hop, harg⟩ := fixed r hr
  have hw : w &&& r.mask = r.pattern := by simpa [Row.covers] using h
  refine ⟨?_, ?_, ?_⟩
  · rw [← hpattern, ← hw, BitVec.extractLsb'_and, hmask, BitVec.and_allOnes]
  · rw [← hw, requestOp, requestOp, BitVec.extractLsb'_and, show r.mask.extractLsb' 28 4 = _ from hop, BitVec.and_allOnes]
  · rw [← harg, ← hw]; exact BitVec.extractLsb'_and.symm

/-- The decoder accepts the code of a row with every argument that the row's mask allows. -/
theorem exists_decodeOp_of_row {r : Row 32} (hr : r ∈ requestRows) {arg : BitVec 24}
    (h : arg &&& requestArg r.mask = 0) : ∃ i, decodeOp (requestOp r.pattern) arg = .ok i := by
  have all (h : arg &&& 0xFFFFFF = 0) : arg = 0 := by
    rwa [show (0xFFFFFF : BitVec 24) = BitVec.allOnes 24 from rfl, BitVec.and_allOnes] at h
  simp only [requestRows, List.mem_cons, List.not_mem_nil, or_false] at hr
  rcases hr with rfl | rfl | rfl | rfl | rfl | rfl | rfl | rfl | rfl | rfl | rfl | rfl
  · exact ⟨_, whenZero_of_eq_zero (all h) ..⟩
  · exact ⟨_, whenZero_of_eq_zero (all h) ..⟩
  · exact ⟨_, whenZero_of_eq_zero h ..⟩
  · exact ⟨_, whenZero_of_eq_zero h ..⟩
  · exact ⟨_, whenZero_of_eq_zero (all h) ..⟩
  · exact ⟨_, whenZero_of_eq_zero (all h) ..⟩
  · exact ⟨_, whenZero_of_eq_zero (all h) ..⟩
  · exact ⟨_, whenZero_of_eq_zero h ..⟩
  · exact ⟨_, whenZero_of_eq_zero (all h) ..⟩
  · exact ⟨_, rfl⟩
  · exact ⟨_, whenZero_of_eq_zero h ..⟩
  · exact ⟨_, whenZero_of_eq_zero h ..⟩

/-- The decoder accepts every well-formed request word. -/
theorem exists_decode_request {w : RequestWord} (h : (Packet.request w).wf = true) : ∃ i, decode (.request w) = .ok i := by
  obtain ⟨r, hr, hw⟩ := List.any_eq_true.1 h
  obtain ⟨hzero, hop, harg⟩ := fields_of_row hr hw
  obtain ⟨i, hi⟩ := exists_decodeOp_of_row hr harg
  exact ⟨i, by rw [← requestWord_fields hzero, decode_requestWord, hop, hi]⟩

/-- The decoder accepts every well-formed frame of one byte. -/
theorem exists_decode_frame_one {b : Byte} (h : (Packet.frame [b]).wf = true) : ∃ i, decode (.frame [b]) = .ok i := by
  have rows : ∀ b : Byte, (Packet.frame [b]).wf = true → b ∈ frameRows8.map Row.pattern := by decide
  have hb := rows b h
  simp only [frameRows8, List.map_cons, List.map_nil, List.mem_cons, List.not_mem_nil, or_false] at hb
  rcases hb with rfl | rfl | rfl | rfl | rfl | rfl <;> exact ⟨_, rfl⟩

/-- The decoder accepts every well-formed frame of two bytes. -/
theorem exists_decode_frame_two {hi lo : Byte} (h : (Packet.frame [hi, lo]).wf = true) :
    ∃ i, decode (.frame [hi, lo]) = .ok i := by
  have opcode {c : Half} (hc : (hi ++ lo) &&& 0xFFFF = c) : [hi, lo] = splitOpcode c := by
    rw [← hc, show (0xFFFF : Half) = BitVec.allOnes 16 from rfl, BitVec.and_allOnes, splitOpcode_append]
  simp only [Packet.wf, frameRows16, Row.covers, List.any_cons, List.any_nil, Bool.or_eq_true, beq_iff_eq] at h
  rcases h with h | h | h | h
  · exact ⟨.busReadSerialFirst8, by rw [opcode h]; rfl⟩
  · exact ⟨.busReadSerialLast6, by rw [opcode h]; rfl⟩
  · have hreg : hi = Opcode.writeUserRegister := by
      calc hi = (hi ++ lo : Half).extractLsb' 8 8 := (List.cons.inj (splitOpcode_append hi lo)).1.symm
        _ = ((hi ++ lo) &&& 0xFF00 : Half).extractLsb' 8 8 := by
            rw [BitVec.extractLsb'_and]; exact BitVec.and_allOnes.symm
        _ = Opcode.writeUserRegister := by rw [h]; rfl
    exact ⟨.busWriteUserRegister lo, by rw [hreg]; rfl⟩
  · cases h

/-- Settles O3: an accepted packet is an encoding, which a row covers, and each row's packets are accepted. -/
theorem decoderAcceptsExactlyTheTable : Obligations.DecoderAcceptsExactlyTheTable := by
  intro p
  constructor
  · rintro ⟨i, hi⟩
    exact acceptedPacketIsTheEncoding p i hi ▸ wf_encode i
  · intro h
    match p, h with
    | .request w, h => exact exists_decode_request h
    | .frame [b], h => exact exists_decode_frame_one h
    | .frame [hi, lo], h => exact exists_decode_frame_two h

/-- Settles O4: the decoder runs on each word. -/
theorem writtenOutWordsDecode : Obligations.WrittenOutWordsDecode :=
  ⟨rfl, rfl, rfl, rfl, rfl, rfl, rfl, rfl, rfl, rfl, rfl⟩

end Sys2Proof
end


section
/-! PROOFS. What an idle block does with the packet it takes (30_encoding.md R80, R95). -/

namespace Sys2Proof.Machine

/-- Without a hardware reset, an idle block runs what the packet it takes decodes to. -/
theorem step_of_fetch_ok {s t : State} {p : Packet} {i : Instr} (hpin : s.resetPin = false) (hs : s.seq = .idle)
    (hf : s.fetch = some (p, t)) (hd : decode p = .ok i) : step s = exec i t := by
  simp [step, hpin, hs, hf, hd]

/-- It refuses a packet that the decoder turns away, with the decoder's reason. -/
theorem step_of_fetch_error {s t : State} {p : Packet} {e : Reject} (hpin : s.resetPin = false) (hs : s.seq = .idle)
    (hf : s.fetch = some (p, t)) (hd : decode p = .error e) : step s = .refused (.malformed e) := by
  simp [step, hpin, hs, hf, hd]

theorem fetch_request {s : State} {w : RequestWord} {rest : List RequestWord} (hf : s.frames = []) (hp : s.port = w :: rest) :
    s.fetch = some (.request w, s.accept w rest) := by
  simp [State.fetch, hf, hp]

theorem fetch_frame {s : State} {bytes : List Byte} {rest : List (List Byte)} (hf : s.frames = bytes :: rest) :
    s.fetch = some (.frame bytes, s.takeFrame rest) := by
  simp [State.fetch, hf]

/-- The decoder turns away a packet that no row of the table covers. -/
theorem exists_decode_error {p : Packet} (h : p.wf = false) : ∃ e, decode p = .error e := by
  cases hd : decode p with
  | error e => exact ⟨e, rfl⟩
  | ok i => exact absurd ((decoderAcceptsExactlyTheTable p).1 ⟨i, hd⟩) (by simp [h])

/-- Settles O6: the packet at the front is taken, and the decoder turns it away. -/
theorem malformedPacketIsRefused : Obligations.MalformedPacketIsRefused := by
  constructor
  · intro s w rest hpin hs hf hp hwf
    obtain ⟨e, hd⟩ := exists_decode_error hwf
    exact ⟨e, step_of_fetch_error hpin hs (fetch_request hf hp) hd⟩
  · intro s bytes rest hpin hs hf hwf
    obtain ⟨e, hd⟩ := exists_decode_error hwf
    exact ⟨e, step_of_fetch_error hpin hs (fetch_frame hf) hd⟩

/-- Settles O5: the packet at the front is taken, its fields latched if it is a request word, and its instruction runs. -/
theorem stepRunsTheDecodedInstruction : Obligations.StepRunsTheDecodedInstruction :=
  ⟨fun _ _ _ _ hpin hs hf hp hd _ => step_of_fetch_ok hpin hs (fetch_request hf hp) hd,
    fun _ _ _ _ hpin hs hf hd _ => step_of_fetch_ok hpin hs (fetch_frame hf) hd⟩

end Sys2Proof.Machine
end


section
/-! PROOFS. The bus rows of the opcode table with every call answered: each is a write, perhaps a delay, perhaps a read
(30_encoding.md R87). -/

namespace Sys2Proof.Machine

/-! ### One step of a path after another -/

/-- A run goes on from a step that is finished into the next. -/
theorem State.run_of_go {s t : State} {m : Micro} {rest : List Micro} (h : s.leave m = .go t) :
    s.run (m :: rest) = State.run { t with todo := rest }.enter rest := by
  rw [State.run, h]

/-- A bus user that has booted runs its path from the first step. -/
theorem andRun_startBus {s : State} (hs : s.inited = true) (path : List Micro) (k : Answer) :
    andRun (s.startBus path k) = (s.start path k).run path := by
  rw [State.startBus, if_pos hs, andRun, State.start_todo]

/-- A path that begins with a write answered T_OK goes on after it. -/
theorem start_run_write {s : State} {stop : Bool} {bytes x : List Byte} {rest : List Reply} (path : List Micro) (k : Answer)
    (hr : s.replies = ⟨.ok, x⟩ :: rest) :
    (s.start (.write stop bytes :: path) k).run (.write stop bytes :: path) =
      State.run (State.enter { s with
        todo := path, answer := k, seq := .wCall, replies := rest, calls := s.calls ++ s.callOf (.write stop bytes) }) path := by
  have hr' : (s.start (.write stop bytes :: path) k).replies = ⟨.ok, x⟩ :: rest := by simpa [State.start] using hr
  exact State.run_of_go (leave_write_of_ok rfl hr')

/-- A read answered T_OK with the bytes asked for fills its part of the buffer. -/
theorem leave_read_fills {s : State} {len base : Nat} {b : List Byte} {rest : List Reply}
    (hr : s.replies = ⟨.ok, b⟩ :: rest) (hb : b.length = len) :
    s.leave (.read len base) = .go { s with replies := rest, rxbuf := fillBuffer s.rxbuf base b } := by
  simp [State.leave, State.awaitRead, hr, mapStatus, hb]

/-- A register read answered T_OK with one byte fills `rxbuf[0]` and the mirror with it. -/
theorem leave_readMirror_fills {s : State} {b : Byte} {rest : List Reply} (hr : s.replies = ⟨.ok, [b]⟩ :: rest) :
    s.leave .readMirror = .go { s with replies := rest, rxbuf := s.rxbuf.set 0 b, regmirror := b } := by
  simp [State.leave, State.awaitReadMirror, State.awaitRead, hr, mapStatus, fillBuffer_one, State.rx]

/-! ### The rows -/

/-- The state in which a bus row has ended OK (notes/assumptions/5.md): the answers are used up to `replies`, the calls made. -/
def State.endRow (s : State) (replies : List Reply) (made : List Call) : State :=
  { s with seq := .done, todo := [], answer := .noData, replies := replies, rsp := ⟨.ok, none⟩, calls := s.calls ++ made }

section Rows

variable {s : State} {x b : List Byte} {rest : List Reply} {len base : Nat} {buf : Vector Byte 14}

/-- A write, followed by nothing. -/
theorem run_write (stop : Bool) (bytes : List Byte) (hr : s.replies = ⟨.ok, x⟩ :: rest) :
    (s.start [.write stop bytes] .noData).run [.write stop bytes] = .next (s.endRow rest (s.callOf (.write stop bytes))) := by
  rw [start_run_write _ _ hr]
  rfl

/-- A write, followed by a delay. -/
theorem run_write_delay {d : Nat} (stop : Bool) (bytes : List Byte) (source : DelaySource)
    (hr : s.replies = ⟨.ok, x⟩ :: rest) (hd : s.delayReturns = d + 1) :
    (s.start [.write stop bytes, .delay source] .noData).run [.write stop bytes, .delay source] =
      .next { s.endRow rest (s.callOf (.write stop bytes) ++ [.delay (s.session.delayArgument source)]) with
        delayReturns := d } := by
  rw [State.endRow, ← List.append_assoc, start_run_write _ _ hr,
    State.run_of_go (leave_delay_of_return rfl (by simpa using hd))]
  rfl

/-- A write, followed by a read. -/
theorem run_write_read (stop : Bool) (bytes : List Byte) (hr : s.replies = ⟨.ok, x⟩ :: ⟨.ok, b⟩ :: rest)
    (hb : b.length = len) (hbuf : fillBuffer s.rxbuf base b = buf) :
    (s.start [.write stop bytes, .read len base] .noData).run [.write stop bytes, .read len base] =
      .next { s.endRow rest (s.callOf (.write stop bytes) ++ [.readWait 0x40 len]) with rxbuf := buf } := by
  rw [State.endRow, ← List.append_assoc, ← hbuf, start_run_write _ _ hr,
    State.run_of_go (leave_read_fills (rest := rest) (b := b) (by simp) hb)]
  rfl

/-- A write, followed by a delay and a read. -/
theorem run_write_delay_read {d : Nat} (stop : Bool) (bytes : List Byte) (source : DelaySource)
    (hr : s.replies = ⟨.ok, x⟩ :: ⟨.ok, b⟩ :: rest) (hd : s.delayReturns = d + 1) (hb : b.length = len)
    (hbuf : fillBuffer s.rxbuf base b = buf) :
    (s.start [.write stop bytes, .delay source, .read len base] .noData).run
        [.write stop bytes, .delay source, .read len base] =
      .next { s.endRow rest (s.callOf (.write stop bytes) ++
          [.delay (s.session.delayArgument source), .readWait 0x40 len]) with
        delayReturns := d, rxbuf := buf } := by
  have assoc (w : List Call) (m n : Call) : s.calls ++ (w ++ [m, n]) = s.calls ++ w ++ [m] ++ [n] := by simp
  rw [State.endRow, assoc, ← hbuf, start_run_write _ _ hr, State.run_of_go (leave_delay_of_return rfl (by simpa using hd)),
    State.run_of_go (leave_read_fills (rest := rest) (b := b) (by simp) hb)]
  rfl

/-- A write, followed by a read into the mirror. -/
theorem run_write_readMirror {c : Byte} (stop : Bool) (bytes : List Byte)
    (hr : s.replies = ⟨.ok, x⟩ :: ⟨.ok, [c]⟩ :: rest) :
    (s.start [.write stop bytes, .readMirror] .noData).run [.write stop bytes, .readMirror] =
      .next { s.endRow rest (s.callOf (.write stop bytes) ++ [.readWait 0x40 1]) with
        rxbuf := s.rxbuf.set 0 c, regmirror := c } := by
  rw [State.endRow, ← List.append_assoc, start_run_write _ _ hr,
    State.run_of_go (leave_readMirror_fills (rest := rest) (b := c) (by simp))]
  rfl

end Rows

/-- Settles O42: in HOLD a write and a read, in POLL a write, the delay and a read, of three bytes. -/
theorem measurementFramesFillTheBuffer : Obligations.MeasurementFramesFillTheBuffer := by
  intro s x b0 b1 c rest hs hr after
  have hbuf := fillBuffer_three s.rxbuf b0 b1 c
  refine ⟨?_, ?_, fun d hd => ⟨?_, ?_⟩⟩
  · exact (andRun_startBus hs _ _).trans (run_write_read false [0xE3] hr rfl hbuf)
  · exact (andRun_startBus hs _ _).trans (run_write_read false [0xE5] hr rfl hbuf)
  · exact (andRun_startBus hs _ _).trans (run_write_delay_read true [0xF3] (.conversion .temperature) hr hd rfl hbuf)
  · exact (andRun_startBus hs _ _).trans (run_write_delay_read true [0xF5] (.conversion .humidity) hr hd rfl hbuf)

/-- Settles O43: a write of two bytes and a read of eight or six. -/
theorem serialFramesFillTheirBatches : Obligations.SerialFramesFillTheirBatches := by
  intro s x batch rest hs hr
  refine ⟨fun hb => ⟨_, ?_, fillBuffer_first8 s.rxbuf batch hb⟩, fun hb => ⟨_, ?_, fillBuffer_last6 s.rxbuf batch hb⟩⟩
  · exact (andRun_startBus hs _ _).trans (run_write_read false (splitOpcode Opcode.readSerialFirst8) hr hb rfl)
  · exact (andRun_startBus hs _ _).trans (run_write_read false (splitOpcode Opcode.readSerialLast6) hr hb rfl)

/-- Settles O44: a write followed by a delay, by nothing, and by a read into the mirror. -/
theorem resetAndRegisterFramesDoWhatFollows : Obligations.ResetAndRegisterFramesDoWhatFollows := by
  refine ⟨fun s x rest d hs hd hr => ?_, fun s d x rest hs hr => ?_, fun s x b rest hs hr => ?_⟩
  · exact (andRun_startBus hs _ _).trans (run_write_delay true [0xFE] .settle hr hd)
  · exact (andRun_startBus hs _ _).trans (run_write true [0xE6, d] hr)
  · exact (andRun_startBus hs _ _).trans (run_write_readMirror true [0xE7] hr)

end Sys2Proof.Machine
end


section
/-! PROOFS. The byte written with 0xE6 keeps the reserved bits of the byte read last (30_encoding.md R98, 42_register_manager.md
R143): on the path of a request the mirror is written last of all, and after the register is read only the merge touches it. -/

namespace Sys2Proof.Machine

/-! ### What a request's path may do -/

/-- What must hold of the steps left after `m`: a write with stop sends one byte, no plain read comes before the mirror is written,
and the mirror is written last. -/
def Micro.fitsBefore (m : Micro) (rest : List Micro) : Bool :=
  match m with
  | .write true bytes => bytes.length == 1
  | .read _ _ => decide (Micro.writeMirror ∉ rest)
  | .writeMirror => rest.isEmpty
  | _ => true

/-- Every step of a path fits before what is left after it. -/
def fitsPath : List Micro → Bool
  | [] => true
  | m :: rest => m.fitsBefore rest && fitsPath rest

theorem fitsPath_cons {m : Micro} {rest : List Micro} (h : fitsPath (m :: rest) = true) :
    m.fitsBefore rest = true ∧ fitsPath rest = true := by
  simpa [fitsPath] using h

theorem fitsPath_of_suffix {path whole : List Micro} (hs : path <:+ whole) (h : fitsPath whole = true) : fitsPath path = true := by
  induction whole with
  | nil => rw [List.suffix_nil.1 hs]; rfl
  | cons m rest ih =>
    rcases List.suffix_cons_iff.1 hs with rfl | hs
    · exact h
    · exact ih hs (fitsPath_cons h).2

/-- The path of every host request; not that of the bus row 0xE6, which sends a byte of its own. -/
theorem fitsPath_pathOf (mode : AcqMode) {i : Instr} (hi : isRequest i = true) : fitsPath (pathOf mode i).1 = true := by
  cases i with
  | busWriteUserRegister d => cases hi
  | readTemperature => cases mode <;> rfl
  | readHumidity => cases mode <;> rfl
  | _ => rfl

/-- A path that writes the mirror reads the register first. -/
theorem readMirror_mem_of_writeMirror_mem (mode : AcqMode) (i : Instr) (h : Micro.writeMirror ∈ (pathOf mode i).1) :
    Micro.readMirror ∈ (pathOf mode i).1 := by
  revert h
  cases i with
  | setResolution l => exact fun _ => by simp [pathOf, setResolutionSteps, readRegisterSteps]
  | writeRegister v => exact fun _ => by simp [pathOf, writeRegisterSteps, readRegisterSteps]
  | readTemperature => cases mode <;> simp [pathOf, acquireSteps, acquireCycle, writeCommand, writeCommandNoStop]
  | readHumidity => cases mode <;> simp [pathOf, acquireSteps, acquireCycle, writeCommand, writeCommandNoStop]
  | _ =>
    simp [pathOf, acquireCycle, readRegisterSteps, serialFirstCycle, serialSecondCycle, serialChecks, writeCommand,
      writeCommandNoStop, writeCommand16NoStop]

/-! ### The mirror -/

/-- `State.HostDriven.reserved`: once the register is read for a write, the mirror has the reserved bits of the byte read. -/
def State.MirrorKeepsReserved (s : State) : Prop :=
  Micro.writeMirror ∈ s.todo → Micro.readMirror ∉ s.todo → s.regmirror &&& 0x38 = s.rx 0 &&& 0x38

/-- Merging keeps the reserved bits (42_register_manager.md R143). -/
theorem mergeRegister_reserved (r v : Byte) : mergeRegister r v &&& 0x38 = r &&& 0x38 := by
  have hr : ~~~wMask &&& 0x38 = (0x38 : Byte) := by decide
  have hv : wMask &&& 0x38 = (0 : Byte) := by decide
  rw [mergeRegister, BitVec.and_or_distrib_right, BitVec.and_assoc, BitVec.and_assoc, hr, hv]
  simp

/-- A step that is no read leaves the receive buffer, and all but the merge leave the mirror. -/
theorem leave_go_registers {s t : State} {m : Micro} (hl : s.leave m = .go t) (hm : m.asks = none) :
    t.rxbuf = s.rxbuf ∧ (m ≠ .merge → t.regmirror = s.regmirror) := by
  have writes (h : s.awaitWrite = .go t) : t.rxbuf = s.rxbuf ∧ t.regmirror = s.regmirror := by
    rcases awaitWrite_cases s with ⟨-, e⟩ | ⟨r, rest, -, -, e⟩ | ⟨r, rest, -, -, e⟩ <;> cases e.symm.trans h
    exact ⟨rfl, rfl⟩
  cases m with
  | write stop bytes => exact (writes hl).imp_right fun h _ => h
  | writeMirror => exact (writes hl).imp_right fun h _ => h
  | read len base => cases hm
  | readMirror => cases hm
  | delay source =>
    rcases awaitDelay_cases s with ⟨-, e⟩ | ⟨n, -, e⟩ <;> cases e.symm.trans hl
    exact ⟨rfl, fun _ => rfl⟩
  | init =>
    rcases awaitInit_cases s with ⟨-, e⟩ | ⟨n, -, e⟩ <;> cases e.symm.trans hl
    exact ⟨rfl, fun _ => rfl⟩
  | check source =>
    rcases runCheck_cases s source with e | e <;> cases e.symm.trans hl
    exact ⟨rfl, fun _ => rfl⟩
  | merge => cases hl; exact ⟨rfl, fun h => absurd rfl h⟩
  | _ => cases hl; exact ⟨rfl, fun _ => rfl⟩

/-- A register read that goes on leaves the byte read in the mirror. -/
theorem leave_go_readMirror {s t : State} (hl : s.leave .readMirror = .go t) : t.regmirror = t.rx 0 := by
  rcases awaitReadMirror_cases s with ⟨-, e⟩ | ⟨r, rest, -, -, -, e⟩ | ⟨r, rest, -, -, -, e⟩ | ⟨r, rest, -, -, e⟩ <;>
    cases e.symm.trans hl
  rfl

theorem State.MirrorKeepsReserved.enter {s : State} (h : s.MirrorKeepsReserved) : s.enter.MirrorKeepsReserved := by
  simpa [State.MirrorKeepsReserved, State.rx] using h

/-- Leaving a step of a path that fits keeps what the mirror has of the byte read. -/
theorem State.MirrorKeepsReserved.leave_go {s t : State} {m : Micro} {rest : List Micro} (h : s.MirrorKeepsReserved)
    (ht : s.todo = m :: rest) (hm : m.fitsBefore rest = true) (hl : s.leave m = .go t) :
    State.MirrorKeepsReserved { t with todo := rest } := by
  intro hw hr
  change t.regmirror &&& 0x38 = t.rx 0 &&& 0x38
  have before (hne : m ≠ .readMirror) : s.regmirror &&& 0x38 = s.rx 0 &&& 0x38 :=
    h (by simpa [ht] using .inr hw) (by simpa [ht, hne.symm] using hr)
  cases m with
  | readMirror => rw [leave_go_readMirror hl]
  | read len base => exact absurd hw (by simpa [Micro.fitsBefore] using hm)
  | merge => cases hl; exact (mergeRegister_reserved ..).trans (before (by simp))
  | _ =>
    obtain ⟨hrx, hmirror⟩ := leave_go_registers hl rfl
    rw [hmirror (by simp), State.rx, hrx]
    exact before (by simp)

/-! ### The bytes written -/

/-- The calls of `t` are those in `before` and others after them, and each byte that these write with 0xE6 has the reserved bits of
`rxbuf[0]`. -/
def State.WritesReservedAfter (t : State) (before : List Call) : Prop :=
  ∃ made, t.calls = before ++ made ∧ ∀ address m, Call.writeWait address [0xE6, m] ∈ made → m &&& 0x38 = t.rx 0 &&& 0x38

theorem State.writesReservedAfter_of_calls_eq {t : State} {before : List Call} (h : t.calls = before) :
    t.WritesReservedAfter before := ⟨[], by simp [h], by simp⟩

/-- A step that is not the write of the mirror, on a path that fits, writes no byte with 0xE6. -/
theorem not_mem_callOf {m : Micro} {rest : List Micro} (hm : m.fitsBefore rest = true) (hne : m ≠ .writeMirror) (s : State)
    (address : Nat) (b : Byte) : Call.writeWait address [0xE6, b] ∉ s.callOf m := by
  cases m with
  | write stop bytes =>
    cases stop with
    | true =>
      intro hc
      obtain ⟨-, rfl⟩ : address = Config.devAddr ∧ [0xE6, b] = bytes := by simpa [State.callOf] using hc
      cases hm
    | false => simp [State.callOf]
  | writeMirror => exact absurd rfl hne
  | _ => simp [State.callOf]

/-- A run that has only the write of the mirror left to do makes no call and leaves the receive buffer. -/
theorem run_writeMirror {s t : State} (hr : s.run [.writeMirror] = .next t) : t.calls = s.calls ∧ t.rxbuf = s.rxbuf := by
  rcases awaitWrite_cases s with ⟨-, e⟩ | ⟨r, rest, -, -, e⟩ | ⟨r, rest, -, -, e⟩ <;>
    (rw [State.run, show s.leave .writeMirror = _ from e] at hr; cases hr; exact ⟨rfl, rfl⟩)

/-- What is claimed of the calls after entering a step of a path that fits holds of the step's own call as well. -/
theorem State.WritesReservedAfter.of_enter {s t : State} {path : List Micro} (ht : s.todo = path) (hp : fitsPath path = true)
    (hmirror : s.MirrorKeepsReserved) (hr : s.enter.run path = .next t) (h : t.WritesReservedAfter s.enter.calls) :
    t.WritesReservedAfter s.calls := by
  cases path with
  | nil => simpa [State.enter_nil ht] using h
  | cons m rest =>
    obtain ⟨hm, -⟩ := fitsPath_cons hp
    have hcalls : s.enter.calls = s.calls ++ s.callOf m := by rw [State.enter_cons ht]
    by_cases hw : m = .writeMirror
    · subst hw
      obtain rfl : rest = [] := by simpa [Micro.fitsBefore] using hm
      obtain ⟨hc, hrx⟩ := run_writeMirror hr
      refine ⟨_, hc.trans hcalls, fun address b hb => ?_⟩
      obtain ⟨-, rfl⟩ : address = Config.devAddr ∧ b = s.regmirror := by
        simpa [State.callOf, Opcode.writeUserRegister] using hb
      rw [State.rx, hrx, State.enter_rxbuf]
      exact hmirror (by simp [ht]) (by simp [ht])
    · obtain ⟨made, hc, hmade⟩ := h
      refine ⟨s.callOf m ++ made, by rw [hc, hcalls, List.append_assoc], fun address b hb => ?_⟩
      rcases List.mem_append.1 hb with hb | hb
      · exact absurd hb (not_mem_callOf hm hw s address b)
      · exact hmade address b hb

/-- Every byte that a run of what is left of a fitting path writes with 0xE6 has the reserved bits of the byte read last. -/
theorem run_writesReservedAfter {path : List Micro} {s t : State} (ht : s.todo = path) (hp : fitsPath path = true)
    (hmirror : s.MirrorKeepsReserved) (hr : s.run path = .next t) : t.WritesReservedAfter s.calls := by
  induction path generalizing s with
  | nil => cases hr; exact State.writesReservedAfter_of_calls_eq rfl
  | cons m rest ih =>
    obtain ⟨hm, hrest⟩ := fitsPath_cons hp
    cases hl : s.leave m with
    | go u =>
      obtain ⟨-, -, hcalls, -⟩ := leave_go hl
      rw [State.run_of_go hl] at hr
      have hu := hmirror.leave_go ht hm hl
      have hentered := ih (State.enter_todo _) hrest hu.enter hr
      exact hcalls ▸ hentered.of_enter (s := { u with todo := rest }) rfl hrest hu hr
    | stay => rw [State.run, hl] at hr; cases hr; exact State.writesReservedAfter_of_calls_eq rfl
    | stop u =>
      obtain ⟨-, -, hcalls, -⟩ := leave_stop hl
      rw [State.run, hl] at hr
      cases hr
      exact State.writesReservedAfter_of_calls_eq hcalls
    | refuse r => rw [State.run, hl] at hr; cases hr

/-- So has every byte that a path run from its start writes with 0xE6, if the path reads the register too. -/
theorem start_run_writesReservedAfter {path : List Micro} {k : Answer} {s t : State} (hp : fitsPath path = true)
    (hread : Micro.writeMirror ∈ path → Micro.readMirror ∈ path) (hr : (s.start path k).run path = .next t) :
    t.WritesReservedAfter s.calls := by
  have hmirror : State.MirrorKeepsReserved { s with todo := path, answer := k } := fun hw hn => absurd (hread hw) hn
  have hentered : t.WritesReservedAfter (s.start path k).calls :=
    run_writesReservedAfter (State.start_todo ..) hp hmirror.enter hr
  exact hentered.of_enter (s := { s with todo := path, answer := k }) rfl hp hmirror hr

/-- So has every byte a host request writes with 0xE6. -/
theorem exec_writesReservedAfter {i : Instr} (hi : isRequest i = true) {s t : State} (h : exec i s = .next t) :
    t.WritesReservedAfter s.calls := by
  obtain ⟨u, hu, hr⟩ := exec_next h
  obtain ⟨-, v, rfl⟩ := startOf_next hu
  rw [State.start_todo] at hr
  exact start_run_writesReservedAfter (s := { s with vArg := v }) (fitsPath_pathOf _ hi)
    (readMirror_mem_of_writeMirror_mem _ i) hr

/-- Settles O58: a step takes a host request, or goes on along a request's path, or makes no call. -/
theorem writtenRegisterKeepsTheReservedBitsRead : Obligations.WrittenRegisterKeepsTheReservedBitsRead := by
  intro s t h hstep
  rcases step_cases s with ⟨-, e⟩ | ⟨-, -, -, e⟩ | ⟨-, -, p, u, hf, hd⟩ | ⟨-, -, e⟩ | ⟨-, hb, e⟩
  · cases e.symm.trans hstep; exact State.writesReservedAfter_of_calls_eq rfl
  · cases e.symm.trans hstep; exact State.writesReservedAfter_of_calls_eq rfl
  · rcases fetch_cases s with ⟨e, -⟩ | ⟨w, rest, -, -, e⟩ | ⟨bytes, rest, hframes, -⟩
    · cases e.symm.trans hf
    · cases e.symm.trans hf
      rcases hd with ⟨i, hi, e⟩ | ⟨r, -, e⟩
      · exact exec_writesReservedAfter (s := s.accept w rest) (isRequest_of_decode_request hi) (e.symm.trans hstep)
      · cases e.symm.trans hstep
    · cases h.frames.symm.trans hframes
  · cases e.symm.trans hstep; exact State.writesReservedAfter_of_calls_eq rfl
  · obtain ⟨m, rest, ht, -, hr⟩ := State.resume_next (e.symm.trans hstep)
    obtain ⟨i, hi, mode, hsuffix, -⟩ := h.request hb
    exact run_writesReservedAfter ht (ht ▸ fitsPath_of_suffix hsuffix (fitsPath_pathOf mode hi)) h.reserved hr

end Sys2Proof.Machine
end


section
/-! PROOFS. The CRC-8 datapath as a shift register with feedback: the 24-bit register of a check, shifted left instead of its marker and
polynomial shifted right, takes the step of the byte-wise form (40_crc8_validator.md R112, R113, R116). -/

namespace Sys2Proof.Machine

/-! ### One iteration -/

theorem iterate_result_of_marked {r : CrcRegs} (h : r.result &&& r.msb ≠ 0) :
    r.iterate.result = ((r.result ^^^ r.poly) &&& r.mask) ||| (r.result &&& ~~~r.mask) := if_pos h

theorem iterate_result_of_unmarked {r : CrcRegs} (h : r.result &&& r.msb = 0) : r.iterate.result = r.result :=
  if_neg (not_not.2 h)

/-- Settles O13: the three constants are shifted once in every iteration, and one iteration more comes after the others. -/
theorem crcIterationIsTheGivenOne : Obligations.CrcIterationIsTheGivenOne := by
  intro value i _
  simp only [iterateN_succ]
  exact ⟨⟨iterN_msb value i, iterN_mask value i, iterN_poly value i⟩, iterate_result_of_marked, iterate_result_of_unmarked,
    rfl, rfl, rfl⟩

/-! ### The closed form, without the mask -/

/-- The working register before iteration `i` of a check. -/
def crcRegister (value : Half) (i : Nat) : CrcWord := (CrcRegs.iterateN i (CrcRegs.load value)).result

/-- A mask that covers the polynomial does not show in the masked exclusive or. -/
theorem masked_xor_of_covered {w : Nat} {r p m : BitVec w} (h : p &&& m = p) :
    ((r ^^^ p) &&& m) ||| (r &&& ~~~m) = r ^^^ p := by
  ext j hj
  have hbit : (p[j] && m[j]) = p[j] := by rw [← BitVec.getElem_and, h]
  cases hm : m[j] <;> simp_all

/-- In every iteration the mask covers the polynomial. -/
theorem poly_and_mask (i : Nat) : Config.crcPoly0 >>> i &&& Config.crcMask0 >>> i = Config.crcPoly0 >>> i := by
  rw [← BitVec.ushiftRight_and_distrib]; rfl

/-- The marker of iteration `i` marks bit 23 - `i`. -/
theorem and_marker_eq_zero_iff {r : CrcWord} {i : Nat} (hi : i < 16) :
    r &&& Config.crcMsb0 >>> i = 0 ↔ r.getLsbD (23 - i) = false := by
  have marker : ∀ i < 16, Config.crcMsb0 >>> i = BitVec.twoPow 24 (23 - i) ∧ BitVec.twoPow 24 (23 - i) ≠ 0 := by decide
  obtain ⟨heq, hne⟩ := marker i hi
  rw [heq, BitVec.and_twoPow]
  split <;> simp_all

/-- One iteration of the closed form of 40_crc8_validator.md R113. -/
theorem crcRegister_succ (value : Half) {i : Nat} (hi : i < 16) :
    crcRegister value (i + 1) =
      if (crcRegister value i).getLsbD (23 - i) then crcRegister value i ^^^ Config.crcPoly0 >>> i
      else crcRegister value i := by
  have hmark := and_marker_eq_zero_iff (r := crcRegister value i) hi
  rw [← iterN_msb value i] at hmark
  rw [crcRegister, iterateN_succ]
  cases hbit : (crcRegister value i).getLsbD (23 - i) with
  | false => exact iterate_result_of_unmarked (hmark.2 hbit)
  | true =>
    rw [iterate_result_of_marked (fun h => by simp [hmark.1 h] at hbit), iterN_mask, iterN_poly,
      masked_xor_of_covered (poly_and_mask i)]
    rfl

/-! ### The shift register with feedback -/

/-- One step to the left: the bit that falls out is fed back through `p`. -/
def feedbackShift {w : Nat} (p x : BitVec w) : BitVec w := if x.msb then x <<< 1 ^^^ p else x <<< 1

/-- The repetition of the byte-wise form is such a step. -/
theorem crcShift_eq_feedbackShift : crcShift = feedbackShift 0x31 := rfl

theorem crcShiftN_eq_iterate (n : Nat) : crcShiftN n = (feedbackShift 0x31)^[n] := by
  induction n with
  | zero => rfl
  | succ n ih => funext c; rw [crcShiftN, ih, crcShift_eq_feedbackShift, Function.iterate_succ_apply]

section Feedback

variable {w : Nat} (p : BitVec w)

theorem feedbackShift_xor (x y : BitVec w) : feedbackShift p (x ^^^ y) = feedbackShift p x ^^^ feedbackShift p y := by
  have hshift : (x ^^^ y) <<< 1 = x <<< 1 ^^^ y <<< 1 := BitVec.shiftLeft_xor_distrib x y 1
  simp only [feedbackShift, BitVec.msb_xor, hshift]
  cases x.msb <;> cases y.msb
  · rfl
  · exact BitVec.xor_assoc ..
  · simp only [Bool.bne_false, if_true, Bool.false_eq_true, if_false]; ac_rfl
  · have cancel : (x <<< 1 ^^^ p) ^^^ (y <<< 1 ^^^ p) = x <<< 1 ^^^ y <<< 1 ^^^ (p ^^^ p) := by ac_rfl
    simpa using cancel.symm

theorem feedbackShift_iterate_xor (n : Nat) (x y : BitVec w) :
    (feedbackShift p)^[n] (x ^^^ y) = (feedbackShift p)^[n] x ^^^ (feedbackShift p)^[n] y := by
  induction n generalizing x y with
  | zero => rfl
  | succ n ih => simp only [Function.iterate_succ_apply, feedbackShift_xor, ih]

/-- As long as no bit falls out, nothing is fed back. -/
theorem feedbackShift_iterate_of_lt {n : Nat} {x : BitVec w} (h : x.toNat * 2 ^ n < 2 ^ w) :
    (feedbackShift p)^[n] x = x <<< n := by
  induction n generalizing x with
  | zero => simp
  | succ n ih =>
    rw [Nat.pow_succ'] at h
    have htwo : x.toNat * 2 < 2 ^ w :=
      lt_of_le_of_lt (Nat.mul_le_mul_left _ (Nat.le_mul_of_pos_right 2 n.two_pow_pos)) h
    have hmsb : x.msb = false := BitVec.msb_eq_false_iff_two_mul_lt.2 (by omega)
    have hnat : (x <<< 1).toNat = x.toNat * 2 := by
      rw [BitVec.toNat_shiftLeft, Nat.shiftLeft_eq, Nat.mod_eq_of_lt (by omega)]
    have hstep : feedbackShift p x = x <<< 1 := by simp [feedbackShift, hmsb]
    rw [Function.iterate_succ_apply, hstep, ih (by rwa [hnat, Nat.mul_assoc]), ← BitVec.shiftLeft_add, Nat.add_comm]

end Feedback

/-! ### A check, shifted left -/

theorem shiftLeft_one_ushiftRight_one {w : Nat} {x : BitVec w} (h : x.msb = false) : x <<< 1 >>> 1 = x := by
  have htwo := BitVec.msb_eq_false_iff_two_mul_lt.1 h
  apply BitVec.eq_of_toNat_eq
  rw [BitVec.toNat_ushiftRight, BitVec.toNat_shiftLeft, Nat.shiftLeft_eq, Nat.mod_eq_of_lt (by omega), Nat.shiftRight_eq_div_pow]
  omega

/-- The polynomial, one place to the left: what is fed back into the working register when it is shifted left. -/
def shiftedPoly : CrcWord := Config.crcPoly0 <<< 1

/-- One step to the left, back again, is the exclusive or of an iteration: the polynomial clears the bit that would fall out. -/
theorem feedbackShift_ushiftRight_one (x : CrcWord) :
    feedbackShift shiftedPoly x >>> 1 = if x.msb then x ^^^ Config.crcPoly0 else x := by
  cases hx : x.msb with
  | false => simpa [feedbackShift, hx] using shiftLeft_one_ushiftRight_one hx
  | true =>
    have hmsb : (x ^^^ Config.crcPoly0).msb = false := by rw [BitVec.msb_xor, hx]; rfl
    simp only [feedbackShift, hx, if_true, shiftedPoly, ← BitVec.shiftLeft_xor_distrib]
    exact shiftLeft_one_ushiftRight_one hmsb

/-- The working register is the register shifted left, back in its place. -/
theorem crcRegister_eq_feedbackShift (value : Half) {i : Nat} (hi : i ≤ 16) :
    crcRegister value i = ((feedbackShift shiftedPoly)^[i] (crcRegister value 0)) >>> i := by
  induction i with
  | zero => simp
  | succ i ih =>
    set x := (feedbackShift shiftedPoly)^[i] (crcRegister value 0)
    have hmsb : (x >>> i).getLsbD (23 - i) = x.msb := by
      rw [BitVec.getLsbD_ushiftRight, Nat.add_sub_of_le (by omega)]; rfl
    calc crcRegister value (i + 1)
      _ = if x.msb then x >>> i ^^^ Config.crcPoly0 >>> i else x >>> i := by
          rw [crcRegister_succ value (by omega), ih (by omega), hmsb]
      _ = (if x.msb then x ^^^ Config.crcPoly0 else x) >>> i := by
          rw [← BitVec.ushiftRight_xor_distrib, apply_ite (fun y : CrcWord => y >>> i)]
      _ = feedbackShift shiftedPoly x >>> (i + 1) := by
          rw [← feedbackShift_ushiftRight_one, ← BitVec.shiftRight_add, Nat.add_comm]
      _ = _ := by rw [Function.iterate_succ_apply']

/-! ### Its bytes -/

/-- A byte in the upper eight bits of the working register. -/
def onTop (c : Byte) : CrcWord := c.zeroExtend 24 <<< 16

theorem onTop_xor (a b : Byte) : onTop (a ^^^ b) = onTop a ^^^ onTop b := by
  simp [onTop, BitVec.shiftLeft_xor_distrib]

theorem onTop_msb (c : Byte) : (onTop c).msb = c.msb := by
  simp [onTop, BitVec.msb_eq_getLsbD_last]

theorem toNat_onTop (c : Byte) : (onTop c).toNat = c.toNat * 2 ^ 16 := by
  simp [onTop, Nat.shiftLeft_eq]
  omega

theorem onTop_shiftLeft_one (c : Byte) : onTop (c <<< 1) = onTop c <<< 1 := by
  apply BitVec.eq_of_toNat_eq
  simp [toNat_onTop, Nat.shiftLeft_eq]
  omega

theorem onTop_ushiftRight (c : Byte) : onTop c >>> 16 = c.zeroExtend 24 := by
  apply BitVec.eq_of_toNat_eq
  simp [toNat_onTop, Nat.shiftRight_eq_div_pow]
  omega

/-- The byte at the top of the register is shifted as the byte-wise form shifts it. -/
theorem feedbackShift_onTop : Function.Semiconj onTop (feedbackShift 0x31) (feedbackShift shiftedPoly) := by
  intro c
  simp only [feedbackShift, onTop_msb]
  split
  · rw [onTop_xor, onTop_shiftLeft_one]; rfl
  · exact onTop_shiftLeft_one c

theorem feedbackShift_iterate_onTop (n : Nat) (c : Byte) :
    (feedbackShift shiftedPoly)^[n] (onTop c) = onTop (crcShiftN n c) := by
  rw [crcShiftN_eq_iterate]
  exact (feedbackShift_onTop.iterate_right n c).symm

/-- Eight steps bring the byte below the top to the top, as it was. -/
theorem feedbackShift_iterate_below (c : Byte) : (feedbackShift shiftedPoly)^[8] (c.zeroExtend 24 <<< 8) = onTop c := by
  have hnat : (c.zeroExtend 24 <<< 8).toNat = c.toNat * 2 ^ 8 := by
    simp [Nat.shiftLeft_eq]
    omega
  rw [feedbackShift_iterate_of_lt _ (by omega), ← BitVec.shiftLeft_add, onTop]

/-- A check starts with the high byte at the top and the low byte below it. -/
theorem crcRegister_zero (value : Half) :
    crcRegister value 0 = onTop (value.extractLsb' 8 8) ^^^ (value.extractLsb' 0 8).zeroExtend 24 <<< 8 := by
  apply BitVec.eq_of_getLsbD_eq
  intro j hj
  simp only [crcRegister, CrcRegs.iterateN, CrcRegs.load, onTop, BitVec.getLsbD_xor, BitVec.truncate_eq_setWidth,
    BitVec.getLsbD_shiftLeft, BitVec.getLsbD_setWidth, BitVec.getLsbD_extractLsb']
  by_cases hlow : j < 16
  · simp [hlow, show j - 8 < 8 by omega]
  · simp [hlow, hj, show ¬ j < 8 by omega, show ¬ j - 8 < 8 by omega, show j - 8 < 24 by omega, show j - 16 < 8 by omega,
      show j - 16 < 24 by omega, show 8 + (j - 16) = j - 8 by omega]

/-- Eight steps run the byte-wise form on the high byte, and eight more on what they and the low byte give. -/
theorem feedbackShift_iterate_sixteen (value : Half) :
    (feedbackShift shiftedPoly)^[16] (crcRegister value 0) = onTop (crc8Bytewise value) := by
  rw [Function.iterate_add_apply _ 8 8, crcRegister_zero, feedbackShift_iterate_xor, feedbackShift_iterate_onTop,
    feedbackShift_iterate_below, ← onTop_xor, feedbackShift_iterate_onTop, crc8Bytewise]

/-- After sixteen iterations the working register is the byte-wise checksum, zero-extended. -/
theorem crcRegister_sixteen (value : Half) : crcRegister value 16 = (crc8Bytewise value).zeroExtend 24 := by
  rw [crcRegister_eq_feedbackShift value le_rfl, feedbackShift_iterate_sixteen, onTop_ushiftRight]

/-- The low byte of the working register at the end of a check is the byte-wise checksum. -/
theorem crc8_eq_crc8Bytewise (value : Half) : crc8 value = crc8Bytewise value := by
  change (crcRegister value 16).extractLsb' 0 8 = _
  rw [crcRegister_sixteen, low8_zeroExtend]

/-- Settles O15: a check is the shift register with feedback, which treats a byte at its top as the byte-wise form treats it. -/
theorem bitSerialCrcIsBytewiseCrc : Obligations.BitSerialCrcIsBytewiseCrc := crc8_eq_crc8Bytewise

/-- After a check the working register is the checksum, zero-extended. -/
theorem afterCheck_result (value : Half) : (CrcRegs.afterCheck value).result = (crc8 value).zeroExtend 24 := by
  rw [crc8_eq_crc8Bytewise]
  exact crcRegister_sixteen value

/-- Settles O14: the mask does not show, and the polynomials have shifted the value out of the upper sixteen bits. -/
theorem crcRegisterFollowsTheClosedForm : Obligations.CrcRegisterFollowsTheClosedForm :=
  ⟨fun value _ hi => crcRegister_succ value hi, afterCheck_result⟩

/-! ### Linearity -/

theorem crcShiftN_xor (n : Nat) (a b : Byte) : crcShiftN n (a ^^^ b) = crcShiftN n a ^^^ crcShiftN n b := by
  rw [crcShiftN_eq_iterate, feedbackShift_iterate_xor]

theorem crc8_xor (a b : Half) : crc8 (a ^^^ b) = crc8 a ^^^ crc8 b := by
  simp only [crc8_eq_crc8Bytewise, crc8Bytewise, BitVec.extractLsb'_xor, crcShiftN_xor]
  ac_rfl

theorem xor_ne_self {w : Nat} {x y : BitVec w} (h : y ≠ 0#w) : x ^^^ y ≠ x := fun he =>
  h ((BitVec.xor_right_inj x).1 (he.trans BitVec.xor_zero.symm))

/-- The repetitions lose nothing. -/
theorem crcShiftN_eq_zero_iff (n : Nat) (c : Byte) : crcShiftN n c = 0 ↔ c = 0 := by
  have one : ∀ c : Byte, crcShift c = 0 ↔ c = 0 := by decide
  induction n generalizing c with
  | zero => rfl
  | succ n ih => exact (ih (crcShift c)).trans (one c)

theorem crc8_eq_zero_iff (value : Half) :
    crc8 value = 0 ↔ crcShiftN 8 (value.extractLsb' 8 8) = value.extractLsb' 0 8 := by
  rw [crc8_eq_crc8Bytewise, crc8Bytewise, crcShiftN_eq_zero_iff]
  exact BitVec.xor_eq_zero_iff

/-- One bit set alone is in one byte, and the other byte is zero. -/
theorem crc8_single_ne_zero {k : Nat} (hk : k < 16) : crc8 (1#16 <<< k) ≠ 0 := by
  have bytes : ∀ k < 16, (1#16 <<< k).extractLsb' 8 8 = 0#8 ∧ (1#16 <<< k).extractLsb' 0 8 ≠ 0#8 ∨
      (1#16 <<< k).extractLsb' 8 8 ≠ 0#8 ∧ (1#16 <<< k).extractLsb' 0 8 = 0#8 := by decide
  rw [Ne, crc8_eq_zero_iff]
  rcases bytes k hk with ⟨hhi, hlo⟩ | ⟨hhi, hlo⟩
  · rw [hhi]; exact hlo.symm
  · rw [hlo]; exact mt (crcShiftN_eq_zero_iff 8 _).1 hhi

/-- Settles O16: by linearity a flipped bit changes the checksum by that of the bit alone, which is never zero. -/
theorem crcIsLinearAndSeesEveryBit : Obligations.CrcIsLinearAndSeesEveryBit :=
  ⟨by decide, crc8_xor, fun a _ hk => crc8_xor a _ ▸ xor_ne_self (crc8_single_ne_zero hk)⟩

end Sys2Proof.Machine
end

section
/-! PROOFS. CRC_CHECK: one check of the operands (40_crc8_validator.md R114, R118, R120). -/

namespace Sys2Proof.Machine

/-- After a check of `value`, the comparison is that of the checksums (40_crc8_validator.md R114). -/
theorem checkStatus_afterCheck (value : Half) (crc : Byte) :
    checkStatus (CrcRegs.afterCheck value) crc = if crc8 value = crc then .ok else .crcError := by
  have hinj : (crc8 value).zeroExtend 24 = crc.zeroExtend 24 ↔ crc8 value = crc :=
    ⟨fun h => by rw [← low8_zeroExtend (crc8 value), h, low8_zeroExtend], fun h => by rw [h]⟩
  simp only [checkStatus, afterCheck_result, hinj]

/-- A check whose datapath was loaded with its value goes on if the checksum is right, and otherwise ends the request. -/
theorem leave_check_of_loaded {s : State} {source : CheckSource} (h : s.crc = CrcRegs.load (s.checkValue source)) :
    s.leave (.check source) =
      if crc8 (s.checkValue source) = s.checkCrc source then .go s.spoilCrc else .stop (s.spoilCrc.raise .crcError) := by
  have hrun : CrcRegs.iterateN Config.crcIter s.crc = CrcRegs.afterCheck (s.checkValue source) := by rw [h]; rfl
  change s.runCheck source = _
  rw [State.runCheck, hrun, checkStatus_afterCheck]
  split_ifs <;> rfl

/-- A run ends in the state in which a step ends the request. -/
theorem State.run_of_stop {s t : State} {m : Micro} {rest : List Micro} (h : s.leave m = .stop t) :
    s.run (m :: rest) = .next t := by
  rw [State.run, h]

/-- Settles O17: entering the check loads the datapath, and what leaving it answers ends the request. -/
theorem crcCheckAnswersByComparison : Obligations.CrcCheckAnswersByComparison := by
  intro s value crc
  set u := s.start [.check (.operands value crc)] .noData
  have hleave : u.leave (.check (.operands value crc)) =
      if crc8 value = crc then .go u.spoilCrc else .stop (u.spoilCrc.raise .crcError) := leave_check_of_loaded rfl
  have hexec : exec (.crcCheck value crc) s = u.run [.check (.operands value crc)] := rfl
  have hcalls : u.calls = s.calls := List.append_nil _
  rw [hexec]
  by_cases h : crc8 value = crc
  · rw [State.run_of_go (hleave.trans (if_pos h))]
    exact ⟨_, _, by rw [← hcalls, if_pos h]; rfl⟩
  · rw [State.run_of_stop (hleave.trans (if_neg h))]
    exact ⟨_, _, by rw [← hcalls, if_neg h]; rfl⟩

/-- Settles O18: a checksum with one bit flipped is another one. -/
theorem ownChecksumPassesAndFlippedFails : Obligations.OwnChecksumPassesAndFlippedFails := by
  intro s value
  have single : ∀ k < 8, 1#8 <<< k ≠ 0 := by decide
  constructor
  · obtain ⟨regs, n, he⟩ := crcCheckAnswersByComparison s value (crc8 value)
    exact ⟨_, he, if_pos rfl⟩
  · intro k hk
    obtain ⟨regs, n, he⟩ := crcCheckAnswersByComparison s value (crc8 value ^^^ 1#8 <<< k)
    exact ⟨_, he, if_neg (xor_ne_self (single k hk)).symm⟩

end Sys2Proof.Machine
end

section
/-! PROOFS. The bus rows and the two command requests with a call that fails: the request ends there with the mapped status
(41_bus_command_layer.md R130 to R133, 60_exceptions.md R214). -/

namespace Sys2Proof.Machine

/-! ### Leaving a call that has failed -/

/-- A failure is NO_ACKNOWLEDGE on overflow and TRANSFER_ERROR otherwise (41_bus_command_layer.md R130). -/
theorem mapStatus_of_ne_ok {st : TransportStatus} (h : st ≠ .ok) :
    mapStatus st = if st = .bufferOverflow then .noAcknowledge else .transferError := by
  cases st with
  | ok => exact absurd rfl h
  | _ => rfl

/-- How many bytes a step reads, and from which index of the buffer on it puts them. -/
def Micro.readsInto : Micro → Option (Nat × Nat)
  | .read len base => some (len, base)
  | .readMirror => some (1, 0)
  | _ => none

section Failure

variable {s : State} {m : Micro} {r : Reply} {rest : List Reply} {len base : Nat}

/-- A write that fails ends the request. -/
theorem leave_write_of_failed (hm : m.phase = .wCall) (hr : s.replies = r :: rest) (hbad : r.status ≠ .ok) :
    s.leave m = .stop ({ s with replies := rest }.raise (mapStatus r.status)) := by
  have hawait : s.awaitWrite = .stop ({ s with replies := rest }.raise (mapStatus r.status)) := by
    rcases awaitWrite_cases s with ⟨h, -⟩ | ⟨r', rest', h, hok, -⟩ | ⟨r', rest', h, -, e⟩ <;> cases hr.symm.trans h
    · exact absurd hok hbad
    · exact e
  cases m with
  | write stop bytes => exact hawait
  | writeMirror => exact hawait
  | _ => cases hm

/-- But for the `len` bytes from index `base` on, `buf` is the receive buffer of `s`. -/
def State.BufferOutside (s : State) (len base : Nat) (buf : Vector Byte 14) : Prop :=
  ∀ (j : Nat) (hj : j < 14), ¬ (base ≤ j ∧ j < base + len) → buf[j] = s.rxbuf[j]

/-- A failing read leaves the buffer outside its own bytes. -/
theorem bufferOutside_spoilRead (s : State) (len base : Nat) : s.BufferOutside len base (s.spoilRead len base).rxbuf := by
  intro j hj hout
  by_cases hb : base ≤ j
  · simp [fillBuffer, freeBytes, hb, show len ≤ j - base by omega]
  · simp [fillBuffer, hb]

/-- A read that fails ends the request, with its bytes of the buffer unspecified (10_state.md R24). -/
theorem leave_read_of_failed (hm : m.readsInto = some (len, base)) (hr : s.replies = r :: rest) (hbad : r.status ≠ .ok) :
    s.leave m = .stop (({ s with replies := rest }.spoilRead len base).raise (mapStatus r.status)) := by
  have hawait : s.awaitRead len base =
      .stop (({ s with replies := rest }.spoilRead len base).raise (mapStatus r.status)) := by
    rcases awaitRead_cases s len base with
      ⟨h, -⟩ | ⟨r', rest', h, hok, -⟩ | ⟨r', rest', h, hok, -⟩ | ⟨r', rest', h, -, e⟩ <;> cases hr.symm.trans h
    · exact absurd hok hbad
    · exact absurd hok hbad
    · exact e
  cases m with
  | read len base => cases hm; exact hawait
  | readMirror =>
    cases hm
    change s.awaitReadMirror = _
    rw [State.awaitReadMirror, hawait]
  | _ => cases hm

/-! ### Runs -/

/-- A path that begins with a write that fails ends there. -/
theorem start_run_write_of_failed (stop : Bool) (bytes : List Byte) (path : List Micro) (hr : s.replies = r :: rest)
    (hbad : r.status ≠ .ok) :
    (s.start (.write stop bytes :: path) .noData).run (.write stop bytes :: path) =
      .next ((s.endRow rest (s.callOf (.write stop bytes))).raise (mapStatus r.status)) := by
  have hr' : (s.start (.write stop bytes :: path) .noData).replies = r :: rest := by simpa [State.start] using hr
  exact State.run_of_stop (leave_write_of_failed rfl hr' hbad)

/-- A write, followed by nothing, ends with its mapped status, OK among them. -/
theorem run_write_of_answered (stop : Bool) (bytes : List Byte) (hr : s.replies = r :: rest) :
    (s.start [.write stop bytes] .noData).run [.write stop bytes] =
      .next ((s.endRow rest (s.callOf (.write stop bytes))).raise (mapStatus r.status)) := by
  by_cases hok : r.status = .ok
  · obtain ⟨status, x⟩ := r
    subst hok
    exact run_write stop bytes hr
  · exact start_run_write_of_failed stop bytes [] hr hok

/-- Entering a read makes its call. -/
theorem enter_read {path : List Micro} (ht : s.todo = m :: path) (hm : m.readsInto = some (len, base)) :
    s.enter = { s with seq := .rCall, calls := s.calls ++ [.readWait 0x40 len] } := by
  rw [State.enter_cons ht]
  cases m with
  | read len base => cases hm; rfl
  | readMirror => cases hm; rfl
  | _ => cases hm

/-- A read that is entered and fails ends the request. -/
theorem enter_run_read_of_failed {path : List Micro} (ht : s.todo = m :: path) (hm : m.readsInto = some (len, base))
    (hr : s.replies = r :: rest) (hbad : r.status ≠ .ok) :
    ∃ (buf : Vector Byte 14) (n : Nat), s.enter.run (m :: path) =
      .next (State.raise { s with
        replies := rest, calls := s.calls ++ [.readWait 0x40 len], rxbuf := buf, free := n } (mapStatus r.status)) ∧
      s.BufferOutside len base buf := by
  have hleave := leave_read_of_failed (s := s.enter) hm (by simpa using hr) hbad
  refine ⟨(s.spoilRead len base).rxbuf, (s.spoilRead len base).free, ?_, bufferOutside_spoilRead s len base⟩
  rw [State.run_of_stop hleave, enter_read ht hm]
  rfl

variable {x : List Byte}

/-- A write, followed by a read that fails. -/
theorem run_write_read_of_failed (stop : Bool) (bytes : List Byte) (hm : m.readsInto = some (len, base))
    (hr : s.replies = ⟨.ok, x⟩ :: r :: rest) (hbad : r.status ≠ .ok) :
    ∃ (buf : Vector Byte 14) (n : Nat), (s.start [.write stop bytes, m] .noData).run [.write stop bytes, m] =
      .next (State.raise { s.endRow rest (s.callOf (.write stop bytes) ++ [.readWait 0x40 len]) with
        rxbuf := buf, free := n } (mapStatus r.status)) ∧
      s.BufferOutside len base buf := by
  rw [start_run_write _ _ hr, State.endRow, ← List.append_assoc]
  exact enter_run_read_of_failed rfl hm rfl hbad

/-- A write, followed by a delay and a read that fails. -/
theorem run_write_delay_read_of_failed {d : Nat} (stop : Bool) (bytes : List Byte) (source : DelaySource)
    (hm : m.readsInto = some (len, base)) (hr : s.replies = ⟨.ok, x⟩ :: r :: rest) (hd : s.delayReturns = d + 1)
    (hbad : r.status ≠ .ok) :
    ∃ (buf : Vector Byte 14) (n : Nat),
      (s.start [.write stop bytes, .delay source, m] .noData).run [.write stop bytes, .delay source, m] =
      .next (State.raise { s.endRow rest (s.callOf (.write stop bytes) ++
          [.delay (s.session.delayArgument source), .readWait 0x40 len]) with
        delayReturns := d, rxbuf := buf, free := n } (mapStatus r.status)) ∧
      s.BufferOutside len base buf := by
  have assoc (w : List Call) (a b : Call) : s.calls ++ (w ++ [a, b]) = s.calls ++ w ++ [a] ++ [b] := by simp
  rw [start_run_write _ _ hr, State.run_of_go (leave_delay_of_return rfl (by simpa using hd)), State.endRow, assoc]
  exact enter_run_read_of_failed rfl hm (by simp) hbad

end Failure

/-! ### The two command requests -/

/-- Settles O19: the path is one write with stop, which ends with its mapped status. -/
theorem writeCommandSendsOneByteWithStop : Obligations.WriteCommandSendsOneByteWithStop :=
  fun _ c _ _ hs hr => (andRun_startBus hs _ _).trans (run_write_of_answered true [c] hr)

/-- Settles O20: the path is one write without stop, which ends with its mapped status. -/
theorem writeCommandNoStopSendsOneByteHeld : Obligations.WriteCommandNoStopSendsOneByteHeld :=
  fun _ c _ _ hs hr => (andRun_startBus hs _ _).trans (run_write_of_answered false [c] hr)

/-! ### The bus rows -/

/-- Settles O56: each row begins with a write, and the seven that read do so after it, in POLL after the delay. -/
theorem busRowsEndAtTheirFirstFailure : Obligations.BusRowsEndAtTheirFirstFailure := by
  intro s bad x y rest hs hbad
  rw [← mapStatus_of_ne_ok hbad]
  intro failed endsAfter endsInRead
  constructor
  · intro hr
    have command (stop : Bool) (bytes : List Byte) (path : List Micro) :=
      (andRun_startBus hs _ _).trans (start_run_write_of_failed stop bytes path hr hbad)
    exact ⟨command true [0xFE] _, command false [0xE3] _, command true [0xF3] _, command false [0xE5] _,
      command true [0xF5] _, command false (splitOpcode Opcode.readSerialFirst8) _,
      command false (splitOpcode Opcode.readSerialLast6) _, fun d => command true [0xE6, d] _, command true [0xE7] _⟩
  · intro hr
    have read (stop : Bool) (bytes : List Byte) (m : Micro) (len base : Nat) (hm : m.readsInto = some (len, base)) :=
      andRun_startBus hs [.write stop bytes, m] .noData ▸ run_write_read_of_failed stop bytes hm hr hbad
    refine ⟨read false [0xE3] (.read 3 0) 3 0 rfl, read false [0xE5] (.read 3 0) 3 0 rfl,
      read false (splitOpcode Opcode.readSerialFirst8) (.read 8 0) 8 0 rfl,
      read false (splitOpcode Opcode.readSerialLast6) (.read 6 8) 6 8 rfl, read true [0xE7] .readMirror 1 0 rfl,
      fun d hd => ?_⟩
    have delayed (c : Byte) (q : Quantity) :=
      andRun_startBus hs [writeCommand c, .delay (.conversion q), .read 3 0] .noData ▸
        run_write_delay_read_of_failed true [c] (.conversion q) (m := .read 3 0) rfl hr hd hbad
    exact ⟨delayed 0xF3 .temperature, delayed 0xF5 .humidity⟩

end Sys2Proof.Machine
end

section
/-! PROOFS. READ_REGISTER and WRITE_REGISTER (42_register_manager.md): both begin with the register read, a command and a read of
one byte, which either fails or goes on with the byte in the mirror. -/

namespace Sys2Proof.Machine

/-! ### The merge -/

/-- The merge with its masks written out (42_register_manager.md R143). -/
theorem mergeRegister_eq (r v : Byte) : mergeRegister r v = (r &&& 0x78) ||| (v &&& 0x87) := by
  have hkept : ~~~wMask = 0x78 := by decide
  have hwritable : wMask = 0x87 := by decide
  rw [mergeRegister, hkept, hwritable]

/-- Under any mask, the merge has the kept bits of the register and the writable bits of the operand. -/
theorem mergeRegister_and (r v k : Byte) : mergeRegister r v &&& k = (r &&& (0x78 &&& k)) ||| (v &&& (0x87 &&& k)) := by
  rw [mergeRegister_eq, BitVec.and_or_distrib_right, BitVec.and_assoc, BitVec.and_assoc]

/-! ### The register read -/

/-- A failing one-byte read leaves all of the buffer but its first byte. -/
theorem State.BufferOutside.exists_set {s : State} {buf : Vector Byte 14} (h : s.BufferOutside 1 0 buf) :
    ∃ b, buf = s.rxbuf.set 0 b := by
  refine ⟨buf[0], ?_⟩
  ext j hj
  by_cases hz : j = 0
  · simp [hz]
  · rw [h j hj (by omega), Vector.getElem_set_ne _ _ (Ne.symm hz)]

section RegisterRead

variable {s : State} {x : List Byte} {r : Reply} {rest : List Reply}

/-- A path that begins with the register read goes on after it with the byte read in the mirror (42_register_manager.md R140). -/
theorem start_run_registerRead {b : Byte} (path : List Micro) (k : Answer) (hr : s.replies = ⟨.ok, x⟩ :: ⟨.ok, [b]⟩ :: rest) :
    (s.start (readRegisterSteps ++ path) k).run (readRegisterSteps ++ path) =
      (State.start { s with
        seq := .rCall, replies := rest, rxbuf := s.rxbuf.set 0 b, regmirror := b,
        calls := s.calls ++ [.writeWait 0x40 [0xE7], .readWait 0x40 1] } path k).run path := by
  rw [List.append_cons s.calls]
  exact (start_run_write _ _ hr).trans (State.run_of_go (leave_readMirror_fills rfl))

/-- A path that begins with the register read ends where its command fails. -/
theorem start_run_registerRead_of_commandFailed (path : List Micro) (k : Answer) (hr : s.replies = r :: rest)
    (hbad : r.status ≠ .ok) :
    (s.start (readRegisterSteps ++ path) k).run (readRegisterSteps ++ path) = .next { s with
      seq := .done, todo := [], answer := k, replies := rest, rsp := ⟨mapStatus r.status, none⟩,
      calls := s.calls ++ [.writeWait 0x40 [0xE7]] } := by
  have hr' : (s.start (readRegisterSteps ++ path) k).replies = r :: rest := by simpa [State.start] using hr
  exact State.run_of_stop (leave_write_of_failed rfl hr' hbad)

/-- A path that begins with the register read ends where its read fails, with `rxbuf[0]` unspecified (10_state.md R24). -/
theorem start_run_registerRead_of_readFailed (path : List Micro) (k : Answer) (hr : s.replies = ⟨.ok, x⟩ :: r :: rest)
    (hbad : r.status ≠ .ok) :
    ∃ (b : Byte) (n : Nat), (s.start (readRegisterSteps ++ path) k).run (readRegisterSteps ++ path) = .next { s with
      seq := .done, todo := [], answer := k, replies := rest, rsp := ⟨mapStatus r.status, none⟩,
      rxbuf := s.rxbuf.set 0 b, free := n, calls := s.calls ++ [.writeWait 0x40 [0xE7], .readWait 0x40 1] } := by
  have hcommand := start_run_write (stop := true) (bytes := [0xE7]) (.readMirror :: path) k hr
  obtain ⟨buf, n, hread, hbuf⟩ := enter_run_read_of_failed (m := .readMirror) (path := path)
    (s := { s with
      todo := .readMirror :: path, answer := k, seq := .wCall, replies := r :: rest,
      calls := s.calls ++ [.writeWait 0x40 [0xE7]] }) rfl rfl rfl hbad
  obtain ⟨b, rfl⟩ := hbuf.exists_set
  refine ⟨b, n, ?_⟩
  rw [List.append_cons s.calls]
  exact hcommand.trans hread

/-- A request that begins with the register read ends with the mapped status where its command or its read fails. -/
theorem andRun_registerRead_of_failed {bad : TransportStatus} {y : List Byte} (path : List Micro) (k : Answer)
    (hs : s.inited = true) (hbad : bad ≠ .ok) :
    (s.replies = ⟨bad, x⟩ :: rest →
      andRun (s.startBus (readRegisterSteps ++ path) k) = .next { s with
        seq := .done, todo := [], answer := k, replies := rest, calls := s.calls ++ [.writeWait 0x40 [0xE7]],
        rsp := ⟨if bad = .bufferOverflow then .noAcknowledge else .transferError, none⟩ }) ∧
    (s.replies = ⟨.ok, x⟩ :: ⟨bad, y⟩ :: rest →
      ∃ (b : Byte) (n : Nat), andRun (s.startBus (readRegisterSteps ++ path) k) = .next { s with
        seq := .done, todo := [], answer := k, replies := rest, rxbuf := s.rxbuf.set 0 b, free := n,
        calls := s.calls ++ [.writeWait 0x40 [0xE7], .readWait 0x40 1],
        rsp := ⟨if bad = .bufferOverflow then .noAcknowledge else .transferError, none⟩ }) := by
  rw [← mapStatus_of_ne_ok hbad, andRun_startBus hs]
  exact ⟨fun hr => start_run_registerRead_of_commandFailed path k hr hbad,
    fun hr => start_run_registerRead_of_readFailed path k hr hbad⟩

/-! ### The write back -/

/-- A path without data that ends in a write ends with that write's mapped status, OK among them. -/
theorem run_lastWrite {m : Micro} (hm : m.phase = .wCall) (hk : s.answer = .noData) (hr : s.replies = r :: rest) :
    s.run [m] = .next ({ s with replies := rest }.raise (mapStatus r.status)) := by
  by_cases hok : r.status = .ok
  · obtain ⟨status, bytes⟩ := r
    subst hok
    rw [State.run_of_go (leave_write_of_ok hm hr), State.run, State.enter_nil rfl, hk]
    rfl
  · exact State.run_of_stop (leave_write_of_failed hm hr hok)

/-- Starting on a LOCAL step makes no call and loads nothing. -/
theorem start_local {m : Micro} (hm : m.phase = .localStep) (path : List Micro) (k : Answer) :
    s.start (m :: path) k = { s with todo := m :: path, answer := k, seq := .localStep } := by
  have hquiet (u : State) : u.callOf m = [] ∧ u.crcOnEntry m = u.crc := by
    cases m with
    | defaults | times | mode | selectV | merge => exact ⟨rfl, rfl⟩
    | _ => cases hm
  rw [State.start, State.enter_cons rfl, (hquiet _).1, (hquiet _).2, hm, List.append_nil]

/-- The mirror is merged with V, and a write with stop sends it (42_register_manager.md R142, R143). -/
theorem start_run_mergeWrite (hr : s.replies = r :: rest) :
    (s.start [.merge, .writeMirror] .noData).run [.merge, .writeMirror] = .next { s with
      seq := .done, todo := [], answer := .noData, replies := rest, regmirror := mergeRegister s.regmirror s.vArg,
      calls := s.calls ++ [.writeWait 0x40 [0xE6, mergeRegister s.regmirror s.vArg]], rsp := ⟨mapStatus r.status, none⟩ } := by
  rw [start_local rfl, State.run_of_go rfl]
  exact run_lastWrite rfl rfl hr

/-- `WriteRegister(V)` with the register read answered (42_register_manager.md R142). -/
theorem start_run_writeRegister {b : Byte} (hr : s.replies = ⟨.ok, x⟩ :: ⟨.ok, [b]⟩ :: r :: rest) :
    (s.start writeRegisterSteps .noData).run writeRegisterSteps = .next { s with
      seq := .done, todo := [], answer := .noData, replies := rest, rxbuf := s.rxbuf.set 0 b,
      regmirror := mergeRegister b s.vArg,
      calls := s.calls ++ [.writeWait 0x40 [0xE7], .readWait 0x40 1, .writeWait 0x40 [0xE6, mergeRegister b s.vArg]],
      rsp := ⟨mapStatus r.status, none⟩ } := by
  have hcalls (c d e : Call) : s.calls ++ [c, d, e] = s.calls ++ [c, d] ++ [e] := by simp
  rw [hcalls]
  exact (start_run_registerRead [.merge, .writeMirror] .noData hr).trans (start_run_mergeWrite rfl)

end RegisterRead

/-! ### The two requests -/

/-- Settles O22: the path ends with the register read, and answers the mirror. -/
theorem readRegisterReturnsTheByteWhole : Obligations.ReadRegisterReturnsTheByteWhole :=
  fun _ _ _ _ hs hr => (andRun_startBus hs _ _).trans (start_run_registerRead [] .registerByte hr)

/-- Settles O23: the path is the register read and nothing after it. -/
theorem readRegisterStopsAtTheFirstFailure : Obligations.ReadRegisterStopsAtTheFirstFailure :=
  fun _ _ _ _ _ hs hbad => andRun_registerRead_of_failed [] .registerByte hs hbad

/-- Settles O24: the path is `WriteRegister(V)` from where V holds the operand. -/
theorem writeRegisterMergesAndWritesBack : Obligations.WriteRegisterMergesAndWritesBack := by
  intro s v x b r rest hs hr
  rw [← mergeRegister_eq]
  exact (andRun_startBus (s := { s with vArg := v }) hs _ _).trans (start_run_writeRegister hr)

/-- Settles O25: the byte sent is the merge, and each of the three masks lies on one side of it. -/
theorem registerMergeKeepsReservedBits : Obligations.RegisterMergeKeepsReservedBits := by
  intro s v x b r rest hs hr
  refine ⟨_, mergeRegister b v, writeRegisterMergesAndWritesBack s v x b r rest hs hr, ?_, ?_, mergeRegister_reserved b v, ?_⟩
  · simp [mergeRegister_eq]
  · simp [mergeRegister_and]
  · simp [mergeRegister_and]

/-- Settles O26: the path begins with the register read, and the merge and the write back stand after it. -/
theorem writeRegisterWritesNothingAfterAFailedRead : Obligations.WriteRegisterWritesNothingAfterAFailedRead :=
  fun s v _ _ _ _ hs hbad =>
    andRun_registerRead_of_failed (s := { s with vArg := v }) [.merge, .writeMirror] .noData hs hbad

end Sys2Proof.Machine
end

section
/-! PROOFS. SET_RESOLUTION (43_timing_and_resolution.md R152): the times come first and wait for nothing, then a register read selects
V, and `WriteRegister(V)` reads again, merges and writes back. -/

namespace Sys2Proof.Machine

/-! ### The timing table -/

/-- Settles O27, row by row. -/
theorem timingTableIsTheGivenOne : Obligations.TimingTableIsTheGivenOne := by
  refine ⟨rfl, rfl, rfl, rfl, fun l => ?_, rfl, rfl⟩
  cases l <;> decide

/-- Settles O30, row by row: the mode has no part in a delay. -/
theorem pollDelaysAreTheTableInMilliseconds : Obligations.PollDelaysAreTheTableInMilliseconds := by
  intro l m
  cases l <;> simp [Session.delayMs, toMs, timeT, timeH]

/-! ### The byte written -/

/-- V with its mask written out (43_timing_and_resolution.md R152). -/
theorem selectResolution_eq (r : Byte) (l : Level) : selectResolution r l = (r &&& 0x7E) ||| resCode l := by
  have hkept : ~~~Config.resMask = 0x7E := by decide
  rw [selectResolution, hkept]

/-- A level's code lies within the writable bits. -/
theorem resCode_and_writable (l : Level) : resCode l &&& 0x87 = resCode l := by cases l <;> decide

/-- The merge of V into the second byte read has the heater and OTP bits of the first, and the level's code. -/
theorem mergeRegister_selectResolution (r1 r2 : Byte) (l : Level) :
    mergeRegister r2 (selectResolution r1 l) = (r2 &&& 0x78) ||| (r1 &&& 0x06) ||| resCode l := by
  have hmask : (0x7E : Byte) &&& 0x87 = 0x06 := by decide
  rw [mergeRegister_eq, selectResolution_eq, BitVec.and_or_distrib_right, BitVec.and_assoc, hmask, resCode_and_writable,
    BitVec.or_assoc]

/-! ### The path -/

section Path

variable {s : State} {x : List Byte} {rest : List Reply}

/-- A path that begins with a LOCAL step goes on after it as a path started from what the step leaves. -/
theorem start_run_local {m : Micro} (hm : m.phase = .localStep) {path : List Micro} {k : Answer} {t : State}
    (hl : State.leave { s with todo := m :: path, answer := k, seq := .localStep } m =
      .go { t with todo := m :: path, answer := k }) :
    (s.start (m :: path) k).run (m :: path) = (t.start path k).run path := by
  rw [start_local hm, State.run_of_go hl]
  rfl

/-- Where the first register read of SET_RESOLUTION starts: the times are set. -/
def State.timesSet (s : State) (l : Level) : State :=
  { s with session := (s.setTimes l).session, seq := .localStep }

/-- Where `WriteRegister(V)` of SET_RESOLUTION starts: the first register read has answered `r1`, and V is selected. -/
def State.levelSelected (s : State) (l : Level) (r1 : Byte) (rest : List Reply) : State :=
  { s.timesSet l with
    replies := rest, rxbuf := s.rxbuf.set 0 r1, regmirror := r1, vArg := selectResolution r1 l,
    calls := s.calls ++ [.writeWait 0x40 [0xE7], .readWait 0x40 1] }

/-- After INIT, SET_RESOLUTION goes on to its register read with the times set (43_timing_and_resolution.md R152). -/
theorem exec_setResolution (l : Level) (hs : s.inited = true) :
    exec (.setResolution l) s =
      ((s.timesSet l).start (readRegisterSteps ++ .selectV l :: writeRegisterSteps) .noData).run
        (readRegisterSteps ++ .selectV l :: writeRegisterSteps) :=
  (andRun_startBus hs _ _).trans (start_run_local (m := .times l) rfl rfl)

/-- With its first register read answered, SET_RESOLUTION goes on to `WriteRegister(V)`. -/
theorem exec_setResolution_of_firstRead {r1 : Byte} (l : Level) (hs : s.inited = true)
    (hr : s.replies = ⟨.ok, x⟩ :: ⟨.ok, [r1]⟩ :: rest) :
    exec (.setResolution l) s = ((s.levelSelected l r1 rest).start writeRegisterSteps .noData).run writeRegisterSteps := by
  rw [exec_setResolution l hs]
  exact (start_run_registerRead (s := s.timesSet l) _ _ hr).trans (start_run_local (m := .selectV l) rfl rfl)

end Path

/-! ### The request -/

/-- Settles O28: after its first register read it is `WriteRegister(V)`, and what that merges is the byte of the statement. -/
theorem setResolutionMakesFiveCalls : Obligations.SetResolutionMakesFiveCalls := by
  intro s l x y r1 r2 r rest hs hr code m
  have hcode : code = resCode l := by cases l <;> rfl
  have hv : (r1 &&& 0x7E) ||| code = selectResolution r1 l := by rw [hcode, selectResolution_eq]
  have hm : m = mergeRegister r2 (selectResolution r1 l) := by rw [mergeRegister_selectResolution, ← hcode]
  rw [exec_setResolution_of_firstRead l hs hr, start_run_writeRegister rfl, hv, hm]
  simp [State.levelSelected, State.timesSet]

/-- Settles O29: the path begins with the times, a LOCAL step, and no later step of it writes the session otherwise. -/
theorem setResolutionSetsTimesOnEveryOutcome : Obligations.SetResolutionSetsTimesOnEveryOutcome :=
  fun _ _ _ h => (Option.some.inj (exec_sessionWrite_of_local rfl rfl rfl h)).symm

/-- Settles O55: a failure of the first register read ends the path as it stands after the times, one of the second as it stands after
V is selected. -/
theorem setResolutionEndsAtTheFirstFailure : Obligations.SetResolutionEndsAtTheFirstFailure := by
  intro s l bad x y z r1 rest hs hbad before k hcase hr
  rw [← mapStatus_of_ne_ok hbad]
  rcases hcase with h | h | h | h <;> cases h
  · rw [exec_setResolution l hs]
    exact ⟨_, start_run_registerRead_of_commandFailed (s := s.timesSet l) _ .noData hr hbad, rfl, rfl, rfl, rfl, rfl, rfl⟩
  · rw [exec_setResolution l hs]
    obtain ⟨b, n, hrun⟩ := start_run_registerRead_of_readFailed (s := s.timesSet l) _ .noData hr hbad
    exact ⟨_, hrun, rfl, rfl, rfl, rfl, rfl, rfl⟩
  · rw [exec_setResolution_of_firstRead l hs hr]
    exact ⟨_, start_run_registerRead_of_commandFailed [.merge, .writeMirror] .noData rfl hbad,
      rfl, rfl, rfl, rfl, List.append_assoc .., rfl⟩
  · rw [exec_setResolution_of_firstRead l hs hr]
    obtain ⟨b, n, hrun⟩ := start_run_registerRead_of_readFailed (s := s.levelSelected l r1 (⟨.ok, y⟩ :: ⟨bad, z⟩ :: rest))
      [.merge, .writeMirror] .noData rfl hbad
    exact ⟨_, hrun, rfl, rfl, rfl, rfl, List.append_assoc .., rfl⟩

end Sys2Proof.Machine
end

section
/-! PROOFS. READ_TEMPERATURE and READ_HUMIDITY (44_acquisition_engine.md): the mode decides how the block comes to its read, with the
command held in HOLD and over the one delay in POLL; from there on both modes read three bytes and check them. -/

namespace Sys2Proof.Machine

/-- A session time in milliseconds, as a quotient of numbers (30_encoding.md R91). -/
theorem toMs_eq (timeUs : Half) : toMs timeUs = BitVec.ofNat 32 (timeUs.toNat / 1000) := by
  apply BitVec.eq_of_toNat_eq
  simp [toMs]

/-- A failing three-byte read leaves all of the buffer but its first three bytes. -/
theorem State.BufferOutside.exists_set_three {s : State} {buf : Vector Byte 14} (h : s.BufferOutside 3 0 buf) :
    ∃ b0 b1 b2, buf = ((s.rxbuf.set 0 b0).set 1 b1).set 2 b2 := by
  refine ⟨buf[0], buf[1], buf[2], ?_⟩
  ext j hj
  rcases j with _ | _ | _ | j
  · simp
  · simp
  · simp
  · rw [h _ hj (by omega)]
    simp

/-! ### The end of a measurement: the read and the check -/

/-- The value and the checksum of three bytes just read (30_encoding.md R88, R90). -/
theorem rawAt_rx_of_three {s : State} {v : Vector Byte 14} {b0 b1 c : Byte}
    (h : s.rxbuf = ((v.set 0 b0).set 1 b1).set 2 c) : s.rawAt 0 = b0 ++ b1 ∧ s.rx 2 = c := by
  simp [State.rawAt, State.rx, h]

/-- What a measurement does from its read on, in both modes (44_acquisition_engine.md R162, R163, R165). -/
def readAndCheck : List Micro := [.read 3 0, .check (.triple 0)]

section Measurement

variable {s : State} {x : List Byte} {r : Reply} {rest : List Reply}

/-- A path that is one check ends OK with its answer if the checksum is right, and otherwise with CRC_ERROR. -/
theorem start_run_check (s : State) (source : CheckSource) (k : Answer) :
    ∃ (regs : CrcRegs) (n : Nat), (s.start [.check source] k).run [.check source] = .next { s with
      seq := .done, todo := [], answer := k, crc := regs, free := n,
      rsp := if crc8 (s.checkValue source) = s.checkCrc source then ⟨.ok, s.answerData k⟩ else ⟨.crcError, none⟩ } := by
  set u := s.start [.check source] k
  have hcalls : u.calls = s.calls := List.append_nil _
  have hvalue : u.checkValue source = s.checkValue source := by cases source <;> rfl
  have hcrc : u.checkCrc source = s.checkCrc source := by cases source <;> rfl
  have hdata : u.answerData k = s.answerData k := by cases k <;> rfl
  have hleave := leave_check_of_loaded (s := u) (source := source) (hvalue ▸ rfl)
  rw [hvalue, hcrc] at hleave
  refine ⟨u.spoilCrc.crc, u.spoilCrc.free, ?_⟩
  by_cases h : crc8 (s.checkValue source) = s.checkCrc source
  · rw [State.run_of_go (hleave.trans (if_pos h)), if_pos h, ← hcalls, ← hdata]
    rfl
  · rw [State.run_of_stop (hleave.trans (if_neg h)), if_neg h, ← hcalls]
    rfl

/-- With three bytes read, a measurement answers their first two if the third is the checksum (44_acquisition_engine.md R165, R167). -/
theorem start_run_readAndCheck {b0 b1 c : Byte} (hr : s.replies = ⟨.ok, [b0, b1, c]⟩ :: rest) :
    ∃ (regs : CrcRegs) (n : Nat), (s.start readAndCheck .rawValue).run readAndCheck = .next { s with
      seq := .done, todo := [], answer := .rawValue, replies := rest, crc := regs, free := n,
      calls := s.calls ++ [.readWait 0x40 3], rxbuf := ((s.rxbuf.set 0 b0).set 1 b1).set 2 c,
      rsp := if crc8 (b0 ++ b1) = c then ⟨.ok, some ((b0 ++ b1).zeroExtend 64)⟩ else ⟨.crcError, none⟩ } := by
  have hread : (s.start readAndCheck .rawValue).leave (.read 3 0) = _ :=
    leave_read_fills (by simpa [State.start] using hr) rfl
  rw [fillBuffer_three] at hread
  set t : State := { s with
    seq := .rCall, replies := rest, calls := s.calls ++ [.readWait 0x40 3],
    rxbuf := ((s.rxbuf.set 0 b0).set 1 b1).set 2 c }
  obtain ⟨hvalue, hcrc⟩ := rawAt_rx_of_three (s := t) rfl
  obtain ⟨regs, n, hcheck⟩ := start_run_check t (.triple 0) .rawValue
  simp only [State.checkValue, State.checkCrc, State.answerData, hvalue, hcrc] at hcheck
  exact ⟨regs, n, (State.run_of_go hread).trans hcheck⟩

/-- A measurement whose read fails ends there, with the three bytes unspecified (44_acquisition_engine.md R170, 10_state.md R24). -/
theorem start_run_readAndCheck_of_failed (hr : s.replies = r :: rest) (hbad : r.status ≠ .ok) :
    ∃ (b0 b1 b2 : Byte) (n : Nat), (s.start readAndCheck .rawValue).run readAndCheck = .next { s with
      seq := .done, todo := [], answer := .rawValue, replies := rest, free := n, rsp := ⟨mapStatus r.status, none⟩,
      rxbuf := ((s.rxbuf.set 0 b0).set 1 b1).set 2 b2, calls := s.calls ++ [.readWait 0x40 3] } := by
  obtain ⟨buf, n, hread, hbuf⟩ := enter_run_read_of_failed (m := .read 3 0) (path := [.check (.triple 0)])
    (s := { s with todo := readAndCheck, answer := .rawValue }) rfl rfl hr hbad
  obtain ⟨b0, b1, b2, rfl⟩ := hbuf.exists_set_three
  exact ⟨b0, b1, b2, n, hread⟩

/-! ### The way to the read -/

/-- After INIT a measurement runs the acquisition of the mode the session has at its start (44_acquisition_engine.md R160). -/
theorem exec_measurement {mode : AcqMode} (q : Quantity) (hs : s.inited = true) (hmode : s.session.acquisitionMode = mode) :
    exec (measurement q) s = (s.start (acquireSteps q mode) .rawValue).run (acquireSteps q mode) := by
  subst hmode
  cases q <;> exact andRun_startBus hs _ _

/-- Where a measurement in HOLD comes to its read: the command is answered. -/
def State.commandHeld (s : State) (q : Quantity) (replies : List Reply) : State :=
  { s with seq := .wCall, replies := replies, calls := s.calls ++ [.writeWaitNoStop 0x40 [acquireOpcode q .hold]] }

/-- Where a measurement in POLL comes to its read: the command is answered, and the delay has returned. -/
def State.commandDelayed (s : State) (q : Quantity) (replies : List Reply) (delayReturns : Nat) : State :=
  { s with
    seq := .dCall, replies := replies, delayReturns := delayReturns,
    calls := s.calls ++ [.writeWait 0x40 [acquireOpcode q .poll], .delay (s.session.delayMs q)] }

/-- In HOLD, a measurement whose command is answered T_OK goes on to its read at once (44_acquisition_engine.md R162). -/
theorem exec_measurement_hold (q : Quantity) (hs : s.inited = true) (hmode : s.session.acquisitionMode = .hold)
    (hr : s.replies = ⟨.ok, x⟩ :: rest) :
    exec (measurement q) s = ((s.commandHeld q rest).start readAndCheck .rawValue).run readAndCheck :=
  (exec_measurement q hs hmode).trans (start_run_write readAndCheck .rawValue hr)

/-- In POLL, a measurement whose command is answered T_OK goes on to its read over one delay, when that returns
(44_acquisition_engine.md R163, R164). -/
theorem exec_measurement_poll {d : Nat} (q : Quantity) (hs : s.inited = true) (hmode : s.session.acquisitionMode = .poll)
    (hd : s.delayReturns = d + 1) (hr : s.replies = ⟨.ok, x⟩ :: rest) :
    exec (measurement q) s = ((s.commandDelayed q rest d).start readAndCheck .rawValue).run readAndCheck := by
  rw [exec_measurement q hs hmode, State.commandDelayed, List.append_cons s.calls]
  exact (start_run_write _ _ hr).trans (State.run_of_go (leave_delay_of_return rfl (by simpa using hd)))

/-- The call a measurement begins with (44_acquisition_engine.md R161 to R163). -/
def acquireCommand (q : Quantity) : AcqMode → Call
  | .hold => .writeWaitNoStop 0x40 [acquireOpcode q .hold]
  | .poll => .writeWait 0x40 [acquireOpcode q .poll]

/-- A measurement whose command fails ends there, in either mode (44_acquisition_engine.md R170). -/
theorem exec_measurement_of_commandFailed (q : Quantity) (hs : s.inited = true) (hr : s.replies = r :: rest)
    (hbad : r.status ≠ .ok) :
    exec (measurement q) s = .next { s with
      seq := .done, todo := [], answer := .rawValue, replies := rest, rsp := ⟨mapStatus r.status, none⟩,
      calls := s.calls ++ [acquireCommand q s.session.acquisitionMode] } := by
  have hr' (path : List Micro) : (s.start path .rawValue).replies = r :: rest := by simpa [State.start] using hr
  rw [exec_measurement q hs rfl]
  cases s.session.acquisitionMode with
  | hold => exact State.run_of_stop (leave_write_of_failed rfl (hr' _) hbad)
  | poll => exact State.run_of_stop (leave_write_of_failed rfl (hr' _) hbad)

end Measurement

/-! ### The two requests -/

/-- Settles O31: the held command, then the read and the check. -/
theorem holdMeasurementReadsWithoutDelay : Obligations.HoldMeasurementReadsWithoutDelay := by
  intro s q x b0 b1 c rest hs hmode hr
  rw [exec_measurement_hold q hs hmode hr, List.append_cons s.calls]
  cases q <;> exact start_run_readAndCheck (s := s.commandHeld _ _) rfl

/-- Settles O32: the command and the one delay, then the read and the check as in HOLD. -/
theorem pollMeasurementDelaysOnce : Obligations.PollMeasurementDelaysOnce := by
  intro s q x b0 b1 c rest d hs hmode hd hr
  obtain ⟨regs, n, hrun⟩ := start_run_readAndCheck 
    (s := s.commandDelayed q (⟨.ok, [b0, b1, c]⟩ :: rest) d) rfl
  refine ⟨regs, n, ?_⟩
  rw [exec_measurement_poll q hs hmode hd hr, hrun, ← toMs_eq, ← toMs_eq, State.commandDelayed, List.append_assoc]
  cases q <;> rfl

/-- Settles O33: the command fails at the front of either path, the read at the front of what both have in common. -/
theorem measurementTransportFailureComesFirst : Obligations.MeasurementTransportFailureComesFirst := by
  intro s q bad x y rest hs hbad
  rw [← mapStatus_of_ne_ok hbad]
  intro failed
  refine ⟨fun hr => ?_, fun hmode hr => ?_, fun d hmode hd hr => ?_⟩
  · rw [exec_measurement_of_commandFailed q hs hr hbad]
    cases s.session.acquisitionMode <;> rfl
  · rw [exec_measurement_hold q hs hmode hr, List.append_cons s.calls]
    exact start_run_readAndCheck_of_failed (s := s.commandHeld q _) rfl hbad
  · have hcalls (a b e : Call) : s.calls ++ [a, b, e] = s.calls ++ [a, b] ++ [e] := by simp
    rw [exec_measurement_poll q hs hmode hd hr, hcalls]
    exact start_run_readAndCheck_of_failed (s := s.commandDelayed q _ d) rfl hbad

/-- Settles O35: a measurement starts at the front of its acquisition, whose phases can be read off in each mode. -/
theorem measurementPhasesAreTheGivenPath : Obligations.MeasurementPhasesAreTheGivenPath := by
  intro s q hs
  have hstart : startOf (measurement q) s = .next (s.start (acquireSteps q s.session.acquisitionMode) .rawValue) := by
    cases q <;> exact if_pos hs
  refine ⟨_, hstart, ?_⟩
  rw [State.start_todo]
  cases s.session.acquisitionMode with
  | hold => exact ⟨rfl, rfl⟩
  | poll => exact ⟨rfl, rfl⟩

end Sys2Proof.Machine
end

section
/-! PROOFS. READ_SERIAL (45_serial_number.md): two cycles of a held command and a read, and after both of them the six checks, each
of which may end the request. -/

namespace Sys2Proof.Machine

/-! ### A row of checks -/

/-- The checksum a check compares with is that of its value (40_crc8_validator.md R114). -/
def State.checkPasses (s : State) (source : CheckSource) : Bool := crc8 (s.checkValue source) == s.checkCrc source

/-- A state between two checks of `s`, where only the phase, the datapath and the free counter have moved. -/
def State.betweenChecks (s : State) (regs : CrcRegs) (n : Nat) : State := { s with seq := .crcRun, crc := regs, free := n }

/-- A check leaves what the later ones compare. -/
theorem checkPasses_betweenChecks (s : State) (regs : CrcRegs) (n : Nat) :
    (s.betweenChecks regs n).checkPasses = s.checkPasses := by
  funext source
  cases source <;> rfl

/-- A check leaves what the request answers. -/
theorem answerData_betweenChecks (s : State) (regs : CrcRegs) (n : Nat) (k : Answer) :
    (s.betweenChecks regs n).answerData k = s.answerData k := by
  cases k <;> rfl

/-- A path that begins with a check goes on after it if the checksum is right, and otherwise ends with CRC_ERROR. -/
theorem start_run_check_cons (s : State) (source : CheckSource) (path : List Micro) (k : Answer) :
    ∃ (regs : CrcRegs) (n : Nat), (s.start (.check source :: path) k).run (.check source :: path) =
      if s.checkPasses source then ((s.betweenChecks regs n).start path k).run path
      else .next (State.raise { s with answer := k, crc := regs, free := n } .crcError) := by
  set u := s.start (.check source :: path) k
  have hcalls : u.calls = s.calls := List.append_nil _
  have hvalue : u.checkValue source = s.checkValue source := by cases source <;> rfl
  have hcrc : u.checkCrc source = s.checkCrc source := by cases source <;> rfl
  have hleave : u.leave (.check source) =
      if s.checkPasses source then .go u.spoilCrc else .stop (u.spoilCrc.raise .crcError) := by
    simpa [State.checkPasses, hvalue, hcrc] using leave_check_of_loaded (s := u) (source := source) (hvalue ▸ rfl)
  refine ⟨u.spoilCrc.crc, u.spoilCrc.free, ?_⟩
  cases h : s.checkPasses source with
  | true =>
    rw [State.run_of_go (hleave.trans (if_pos h)), if_pos rfl, State.betweenChecks, ← hcalls]
    rfl
  | false =>
    rw [State.run_of_stop (hleave.trans (if_neg (by simp [h]))), if_neg Bool.false_ne_true, ← hcalls]
    rfl

/-- A path of checks ends OK with its answer if every checksum is right, and otherwise with CRC_ERROR (45_serial_number.md R184). -/
theorem start_run_checks (s : State) (sources : List CheckSource) (k : Answer) :
    ∃ (regs : CrcRegs) (n : Nat), (s.start (sources.map .check) k).run (sources.map .check) = .next { s with
      seq := .done, todo := [], answer := k, crc := regs, free := n,
      rsp := if sources.all s.checkPasses then ⟨.ok, s.answerData k⟩ else ⟨.crcError, none⟩ } := by
  induction sources generalizing s with
  | nil => exact ⟨s.crc, s.free, by cases k <;> rfl⟩
  | cons source sources ih =>
    obtain ⟨regs, n, hfirst⟩ := start_run_check_cons s source (sources.map .check) k
    rw [List.map_cons, hfirst, List.all_cons]
    cases s.checkPasses source with
    | false => exact ⟨regs, n, rfl⟩
    | true =>
      obtain ⟨regs', n', hlater⟩ := ih (s.betweenChecks regs n)
      rw [checkPasses_betweenChecks, answerData_betweenChecks] at hlater
      exact ⟨regs', n', hlater⟩

/-! ### A cycle -/

/-- A 16-bit command without stop, and a read (45_serial_number.md R181, R182). -/
def serialCycle (opcode : Half) (len base : Nat) : List Micro := [writeCommand16NoStop opcode, .read len base]

/-- Where a path comes to after a cycle with both calls answered, the read having left the buffer as `buf`. -/
def State.cycleDone (s : State) (opcode : Half) (len : Nat) (buf : Vector Byte 14) (rest : List Reply) : State :=
  { s with
    seq := .rCall, replies := rest, rxbuf := buf,
    calls := s.calls ++ [.writeWaitNoStop 0x40 (splitOpcode opcode), .readWait 0x40 len] }

section Cycle

variable {s : State} {x b : List Byte} {r : Reply} {rest : List Reply} {len : Nat} {buf : Vector Byte 14}
variable (opcode : Half) (base : Nat) (path : List Micro) (k : Answer)

/-- A path that begins with a cycle goes on after it. -/
theorem start_run_serialCycle (hr : s.replies = ⟨.ok, x⟩ :: ⟨.ok, b⟩ :: rest) (hb : b.length = len)
    (hbuf : fillBuffer s.rxbuf base b = buf) :
    (s.start (serialCycle opcode len base ++ path) k).run (serialCycle opcode len base ++ path) =
      ((s.cycleDone opcode len buf rest).start path k).run path := by
  rw [State.cycleDone, ← hbuf, List.append_cons s.calls]
  exact (start_run_write _ _ hr).trans (State.run_of_go (leave_read_fills rfl hb))

/-- A path that begins with a cycle ends where its command fails. -/
theorem start_run_serialCycle_of_commandFailed (hr : s.replies = r :: rest) (hbad : r.status ≠ .ok) :
    (s.start (serialCycle opcode len base ++ path) k).run (serialCycle opcode len base ++ path) = .next { s with
      seq := .done, todo := [], answer := k, replies := rest, rsp := ⟨mapStatus r.status, none⟩,
      calls := s.calls ++ [.writeWaitNoStop 0x40 (splitOpcode opcode)] } := by
  have hr' : (s.start (serialCycle opcode len base ++ path) k).replies = r :: rest := by simpa [State.start] using hr
  exact State.run_of_stop (leave_write_of_failed rfl hr' hbad)

/-- A path that begins with a cycle ends where its read fails, with the bytes of the read unspecified (10_state.md R24). -/
theorem start_run_serialCycle_of_readFailed (hr : s.replies = ⟨.ok, x⟩ :: r :: rest) (hbad : r.status ≠ .ok) :
    ∃ (buf : Vector Byte 14) (n : Nat),
      (s.start (serialCycle opcode len base ++ path) k).run (serialCycle opcode len base ++ path) = .next { s with
        seq := .done, todo := [], answer := k, replies := rest, rsp := ⟨mapStatus r.status, none⟩, rxbuf := buf, free := n,
        calls := s.calls ++ [.writeWaitNoStop 0x40 (splitOpcode opcode), .readWait 0x40 len] } := by
  have hcommand := start_run_write (stop := false) (bytes := splitOpcode opcode) (.read len base :: path) k hr
  obtain ⟨buf, n, hread, -⟩ := enter_run_read_of_failed (m := .read len base) (path := path)
    (s := { s with
      todo := .read len base :: path, answer := k, seq := .wCall, replies := r :: rest,
      calls := s.calls ++ [.writeWaitNoStop 0x40 (splitOpcode opcode)] }) rfl rfl rfl hbad
  refine ⟨buf, n, ?_⟩
  rw [List.append_cons s.calls]
  exact hcommand.trans hread

end Cycle

/-! ### The request -/

/-- The values and checksums of the six checks, in ascending index (45_serial_number.md R184). -/
def serialSources : List CheckSource := [.pair 0, .pair 2, .pair 4, .pair 6, .triple 8, .triple 11]

theorem serialChecks_eq_map : serialChecks = serialSources.map .check := rfl

/-- READ_SERIAL from its second cycle on. -/
def serialSecondHalf : List Micro := serialCycle Opcode.readSerialLast6 6 8 ++ serialChecks

section Serial

variable {s : State} {x y batch batch' : List Byte} {rest : List Reply} {full : Vector Byte 14}

/-- Where READ_SERIAL comes to its second cycle: the first eight bytes are read. -/
def State.firstBatchRead (s : State) (batch : List Byte) (rest : List Reply) : State :=
  s.cycleDone Opcode.readSerialFirst8 8 (fillBuffer s.rxbuf 0 batch) rest

/-- Where READ_SERIAL comes to its checks: the buffer is full. -/
def State.bothBatchesRead (s : State) (full : Vector Byte 14) (rest : List Reply) : State :=
  { s with
    seq := .rCall, replies := rest, rxbuf := full,
    calls := s.calls ++ [.writeWaitNoStop 0x40 [0xFA, 0x0F], .readWait 0x40 8, .writeWaitNoStop 0x40 [0xFC, 0xC9],
      .readWait 0x40 6] }

/-- After INIT, READ_SERIAL runs its two cycles and the checks. -/
theorem exec_readSerial (hs : s.inited = true) :
    exec .readSerial s = (s.start (serialCycle Opcode.readSerialFirst8 8 0 ++ serialSecondHalf) .serialNumber).run
      (serialCycle Opcode.readSerialFirst8 8 0 ++ serialSecondHalf) :=
  andRun_startBus hs _ _

/-- With the first cycle answered, READ_SERIAL goes on to the second, whatever bytes it has read (92_eei_decisions.md D18). -/
theorem exec_readSerial_of_firstBatch (hs : s.inited = true) (hr : s.replies = ⟨.ok, x⟩ :: ⟨.ok, batch⟩ :: rest)
    (hb : batch.length = 8) :
    exec .readSerial s = ((s.firstBatchRead batch rest).start serialSecondHalf .serialNumber).run serialSecondHalf :=
  (exec_readSerial hs).trans (start_run_serialCycle _ _ _ _ hr hb rfl)

/-- With both cycles answered, READ_SERIAL goes on to its checks. -/
theorem exec_readSerial_of_bothBatches (hs : s.inited = true)
    (hr : s.replies = ⟨.ok, x⟩ :: ⟨.ok, batch⟩ :: ⟨.ok, y⟩ :: ⟨.ok, batch'⟩ :: rest) (hb : batch.length = 8)
    (hb' : batch'.length = 6) (hfull : fillBuffer (fillBuffer s.rxbuf 0 batch) 8 batch' = full) :
    exec .readSerial s = ((s.bothBatchesRead full rest).start serialChecks .serialNumber).run serialChecks := by
  have hcalls (c d e f : Call) : s.calls ++ [c, d, e, f] = s.calls ++ [c, d] ++ [e, f] := by simp
  rw [exec_readSerial_of_firstBatch hs hr hb, State.bothBatchesRead, hcalls]
  exact start_run_serialCycle _ _ _ _ rfl hb' hfull

end Serial

section Buffer

variable {s : State} {a0 a1 a2 a3 a4 a5 a6 a7 e0 e1 e2 e3 e4 e5 : Byte}
  (h : s.rxbuf = #v[a0, a1, a2, a3, a4, a5, a6, a7, e0, e1, e2, e3, e4, e5])

include h

/-- Which bytes of the full buffer the six checks compare. -/
theorem serialSources_pass_iff :
    serialSources.all s.checkPasses = true ↔
      crc8 (a0.zeroExtend 16) = a1 ∧ crc8 (a2.zeroExtend 16) = a3 ∧ crc8 (a4.zeroExtend 16) = a5 ∧
        crc8 (a6.zeroExtend 16) = a7 ∧ crc8 (e0 ++ e1) = e2 ∧ crc8 (e3 ++ e4) = e5 := by
  simp [serialSources, State.checkPasses, State.checkValue, State.checkCrc, State.rawAt, State.rx, h]

/-- Which bytes of the full buffer make the identifier (45_serial_number.md R183). -/
theorem serial_of_fullBuffer : s.serial = a0 ++ a2 ++ a4 ++ a6 ++ e0 ++ e1 ++ e3 ++ e4 := by
  simp [State.serial, State.rx, h]

end Buffer

/-- Settles O36: the two cycles fill the buffer, and the six checks are made on it. -/
theorem readSerialAssemblesTheIdentifier : Obligations.ReadSerialAssemblesTheIdentifier := by
  intro s x y a0 a1 a2 a3 a4 a5 a6 a7 e0 e1 e2 e3 e4 e5 rest hs hr
  set t := s.bothBatchesRead #v[a0, a1, a2, a3, a4, a5, a6, a7, e0, e1, e2, e3, e4, e5] rest
  obtain ⟨regs, n, hchecks⟩ := start_run_checks t serialSources .serialNumber
  rw [← serialChecks_eq_map, if_congr (serialSources_pass_iff rfl) rfl rfl, State.answerData, serial_of_fullBuffer rfl] at hchecks
  exact ⟨regs, n, (exec_readSerial_of_bothBatches hs hr rfl rfl (fillBuffer_both ..)).trans hchecks⟩

/-- Settles O37: a failure of the first cycle ends the path as it stands, one of the second as it stands with the first batch read. -/
theorem readSerialTransportFailureOutranksChecks : Obligations.ReadSerialTransportFailureOutranksChecks := by
  intro s bad x y z batch rest hs hbad hb before k hcase hr
  rw [← mapStatus_of_ne_ok hbad]
  rcases hcase with h | h | h | h <;> cases h
  · rw [exec_readSerial hs]
    exact ⟨_, start_run_serialCycle_of_commandFailed _ _ _ _ hr hbad, rfl, rfl, rfl, rfl, rfl, rfl⟩
  · rw [exec_readSerial hs]
    obtain ⟨buf, n, hrun⟩ := start_run_serialCycle_of_readFailed _ _ _ _ hr hbad
    exact ⟨_, hrun, rfl, rfl, rfl, rfl, rfl, rfl⟩
  · rw [exec_readSerial_of_firstBatch hs hr hb]
    exact ⟨_, start_run_serialCycle_of_commandFailed _ _ serialChecks _ rfl hbad,
      rfl, rfl, rfl, rfl, List.append_assoc .., rfl⟩
  · rw [exec_readSerial_of_firstBatch hs hr hb]
    obtain ⟨buf, n, hrun⟩ := start_run_serialCycle_of_readFailed (s := s.firstBatchRead batch (⟨.ok, y⟩ :: ⟨bad, z⟩ :: rest))
      Opcode.readSerialLast6 8 serialChecks .serialNumber rfl hbad
    exact ⟨_, hrun, rfl, rfl, rfl, rfl, List.append_assoc .., rfl⟩

end Sys2Proof.Machine
end

section
/-! PROOFS. INIT, RESET and SET_MODE (46_system_ops.md): each writes the session in one LOCAL step, INIT and RESET with one wait after it
for a call to return. -/

namespace Sys2Proof.Machine

section Path

variable {s : State} {rest : List Reply}

/-! ### The last step of each path -/

/-- An init call that returns is left with INIT done (46_system_ops.md R190). -/
theorem leave_init_of_return {n : Nat} (hn : s.initReturns = n + 1) :
    s.leave .init = .go { s with initReturns := n, inited := true } := by
  simp [State.leave, State.awaitInit, hn]

/-- A path without data that is an init call ends OK with INIT done, when the call returns. -/
theorem start_run_init {n : Nat} (hn : s.initReturns = n + 1) :
    (s.start [.init] .noData).run [.init] = .next { s with
      seq := .done, todo := [], answer := .noData, initReturns := n, inited := true, calls := s.calls ++ [.init],
      rsp := ⟨.ok, none⟩ } :=
  State.run_of_go (leave_init_of_return (by simpa [State.start] using hn))

/-- A path without data that is a delay ends OK, when the delay returns. -/
theorem start_run_delay {d : Nat} (source : DelaySource) (hd : s.delayReturns = d + 1) :
    (s.start [.delay source] .noData).run [.delay source] = .next { s with
      seq := .done, todo := [], answer := .noData, delayReturns := d,
      calls := s.calls ++ [.delay (s.session.delayArgument source)], rsp := ⟨.ok, none⟩ } :=
  State.run_of_go (leave_delay_of_return rfl (by simpa [State.start] using hd))

/-! ### The way to the last step -/

/-- Before INIT, INIT goes on to its init call with the session's defaults set (46_system_ops.md R190). -/
theorem exec_init (hs : s.inited = false) :
    exec .init s = (State.start { s.setDefaults with seq := .localStep } [.init] .noData).run [.init] := by
  rw [exec_eq_andRun_startOf, startOf_of_booted (fun _ => hs) (by simp [needsInit])]
  exact start_run_local (m := .defaults) rfl rfl

/-- After INIT, RESET runs its command, the times of the first level and the delay, in that order (46_system_ops.md R191). -/
theorem exec_reset (hs : s.inited = true) :
    exec .reset s = (s.start [.write true [0xFE], .times .L0, .delay .settle] .noData).run
      [.write true [0xFE], .times .L0, .delay .settle] :=
  andRun_startBus hs _ _

/-- Where RESET comes to its times: the command is answered. -/
def State.resetSent (s : State) (rest : List Reply) : State :=
  { s with seq := .wCall, replies := rest, calls := s.calls ++ [.writeWait 0x40 [0xFE]] }

/-- With its command answered T_OK, RESET goes on to its delay with the times restored (46_system_ops.md R191). -/
theorem exec_reset_of_commandOk {x : List Byte} (hs : s.inited = true) (hr : s.replies = ⟨.ok, x⟩ :: rest) :
    exec .reset s = (((s.resetSent rest).timesSet .L0).start [.delay .settle] .noData).run [.delay .settle] := by
  rw [exec_reset hs]
  exact (start_run_write _ _ hr).trans (start_run_local (s := s.resetSent rest) (m := .times .L0) rfl rfl)

end Path

/-! ### The requests -/

/-- Settles O40: the path is one LOCAL step, which writes the mode. -/
theorem setModeWritesTheModeOnly : Obligations.SetModeWritesTheModeOnly :=
  fun s m => start_run_local (m := .mode m) (t := { s.setMode m with seq := .localStep }) rfl rfl

/-- Settles O38: the defaults come first and wait for nothing, then the init call returns. -/
theorem initSetsTheSessionAndTheTransport : Obligations.InitSetsTheSessionAndTheTransport :=
  fun _ _ hs hn => (exec_init hs).trans (start_run_init hn)

/-- Settles O39: a command that fails ends the path where it stands, before the times; otherwise the delay is left. -/
theorem resetRestoresTheTimesUnlessItFails : Obligations.ResetRestoresTheTimesUnlessItFails := by
  intro s r rest hs hr
  constructor
  · intro d hok hd
    obtain ⟨status, x⟩ := r
    cases hok
    rw [List.append_cons s.calls]
    exact (exec_reset_of_commandOk hs hr).trans (start_run_delay .settle hd)
  · intro hbad
    rw [exec_reset hs, ← mapStatus_of_ne_ok hbad]
    exact start_run_write_of_failed _ _ _ hr hbad

end Sys2Proof.Machine
end

section
/-! PROOFS. The annex conversions (47_unit_converter_annex.md R205): each is a line with a positive slope, so it increases strictly. -/

namespace Sys2Proof.Machine

/-- The slope 17572/6553600 is positive. -/
theorem temperatureC_strictMono : StrictMono temperatureC := by
  intro a b hab
  unfold temperatureC
  gcongr

/-- The slope 125/65536 is positive. -/
theorem humidityRH_strictMono : StrictMono humidityRH := by
  intro a b hab
  unfold humidityRH
  gcongr

/-- Settles O54: both conversions are strictly monotone, and the six end values are computed from the formulas. -/
theorem conversionsIncreaseBetweenTheGivenEnds : Obligations.ConversionsIncreaseBetweenTheGivenEnds := by
  refine ⟨fun _ _ hab => ⟨temperatureC_strictMono hab, humidityRH_strictMono hab⟩, ?_⟩
  norm_num [temperatureC, humidityRH]

end Sys2Proof.Machine
end


section
/-! PROOFS. The host's moves (70_reset_and_hazards.md R240, R256, R257): one equation of a step for each, and what each leaves
alone; the boot order (R242). -/

namespace Sys2Proof.Machine

/-! ### A step, by pin and phase -/

/-- A block is idle, holds a response, or is busy. -/
theorem State.idle_or_done_or_busy (s : State) : s.seq = .idle ∨ s.seq = .done ∨ s.busy = true := by
  by_cases hidle : s.seq = .idle
  · exact .inl hidle
  · by_cases hdone : s.seq = .done
    · exact .inr (.inl hdone)
    · exact .inr (.inr (by simp [State.busy, hidle, hdone]))

theorem step_of_resetPin {s : State} (hpin : s.resetPin = true) : step s = .next s.hardwareReset := by
  simp [step, hpin]

theorem step_of_done {s : State} (hpin : s.resetPin = false) (hs : s.seq = .done) : step s = .next s.takeResponse := by
  simp [step, hpin, hs]

theorem step_of_fetch_none {s : State} (hpin : s.resetPin = false) (hs : s.seq = .idle) (hf : s.fetch = none) :
    step s = .next s := by
  simp [step, hpin, hs, hf]

theorem fetch_eq_none {s : State} (hf : s.frames = []) (hp : s.port = []) : s.fetch = none := by
  simp [State.fetch, hf, hp]

/-- Settles O7: an idle block fetches nothing from an empty port. -/
theorem idleBlockWaits : Obligations.IdleBlockWaits :=
  fun _ hpin hs hp hf => step_of_fetch_none hpin hs (fetch_eq_none hf hp)

/-- Settles O9: the step is `State.takeResponse`, whose free values are the ones left open. -/
theorem doneBlockGivesItsResponseOnce : Obligations.DoneBlockGivesItsResponseOnce :=
  fun _ hpin hs => ⟨_, _, _, _, step_of_done hpin hs⟩

/-- Settles O11: the step is `State.hardwareReset`, and the times of the first level are the defaults. -/
theorem hardwareResetInAnyState : Obligations.HardwareResetInAnyState :=
  fun _ hpin => ⟨_, _, _, _, _, _, _, step_of_resetPin hpin⟩

/-! ### The boot order -/

/-- INIT starts only before INIT (46_system_ops.md R190). -/
theorem not_inited_of_startOf_init {s u : State} (h : startOf .init s = .next u) : s.inited = false := by
  cases hs : s.inited with
  | false => rfl
  | true => cases (startOf_init_of_inited hs).symm.trans h

/-- An instruction that answers a next state is within the boot order. -/
theorem booted_of_exec {i : Instr} {s t : State} (h : exec i s = .next t) :
    (i = .init → s.inited = false) ∧ (needsInit i = true → s.inited = true) := by
  obtain ⟨u, hu, -⟩ := exec_next h
  exact ⟨fun hi => not_inited_of_startOf_init (hi ▸ hu), (startOf_next hu).1⟩

/-- Settles O41: what an instruction does at the start is settled by `inited`, and a refusal at the start is one of the whole. -/
theorem bootOrderIsEnforced : Obligations.BootOrderIsEnforced := by
  refine ⟨fun s i hi hs => ?_, fun s hs => ?_, fun s i hinit hbus => ⟨_, startOf_of_booted hinit hbus⟩⟩
  · rw [exec_eq_andRun_startOf, startOf_of_not_inited hi hs, andRun]
  · rw [exec_eq_andRun_startOf, startOf_init_of_inited hs, andRun]

/-! ### A machine without frames -/

/-- An idle block with no frame waiting waits unchanged, or runs the request at the front of the port, within the boot order. -/
theorem idle_step_cases {s t : State} (hf : s.frames = []) (hpin : s.resetPin = false) (hs : s.seq = .idle)
    (hstep : step s = .next t) :
    (s.port = [] ∧ t = s) ∨
    ∃ w rest i, s.port = w :: rest ∧ decode (.request w) = .ok i ∧ isRequest i = true ∧ exec i (s.accept w rest) = .next t := by
  cases hp : s.port with
  | nil =>
    cases (step_of_fetch_none hpin hs (fetch_eq_none hf hp)).symm.trans hstep
    exact .inl ⟨rfl, rfl⟩
  | cons w rest =>
    have hfetch := fetch_request hf hp
    cases hd : decode (.request w) with
    | ok i =>
      have he := (step_of_fetch_ok hpin hs hfetch hd).symm.trans hstep
      exact .inr ⟨w, rest, i, rfl, hd, isRequest_of_decode_request hd, he⟩
    | error e => cases (step_of_fetch_error hpin hs hfetch hd).symm.trans hstep

/-- A request that goes on leaves the port, the frames and the responses given. -/
theorem resume_sameOutside {s t : State} (h : s.resume = .next t) : s.SameOutside t := by
  obtain ⟨m, rest, -, -, hr⟩ := State.resume_next h
  exact (State.run_continuesFrom hr).outside

/-- No step adds a frame (notes/assumptions/4.md). -/
theorem step_frames_nil {s t : State} (hf : s.frames = []) (hstep : step s = .next t) : t.frames = [] := by
  cases hpin : s.resetPin with
  | true =>
    cases (step_of_resetPin hpin).symm.trans hstep
    exact hf
  | false =>
    rcases s.idle_or_done_or_busy with hs | hs | hb
    · rcases idle_step_cases hf hpin hs hstep with ⟨-, rfl⟩ | ⟨w, rest, i, -, -, -, he⟩
      · exact hf
      · obtain ⟨-, hframes, -⟩ := (exec_continuesFrom he).outside
        exact hframes.trans hf
    · cases (step_of_done hpin hs).symm.trans hstep
      exact hf
    · obtain ⟨-, hframes, -⟩ := resume_sameOutside ((step_busy hpin hb).symm.trans hstep)
      exact hframes.trans hf

/-- Settles O59: the pin and the phase say which equation of a step applies; a request that is taken or goes on runs, and a run leaves
the outside alone. -/
theorem hostHasOnlyItsMoves : Obligations.HostHasOnlyItsMoves := by
  intro s t hf hstep
  refine ⟨step_frames_nil hf hstep, fun hpin => ?_, fun hpin hs => ?_, fun hpin hs => ?_, fun hpin hb => ?_⟩
  · cases (step_of_resetPin hpin).symm.trans hstep
    exact ⟨rfl, rfl, rfl, rfl⟩
  · refine (idle_step_cases hf hpin hs hstep).imp_right ?_
    rintro ⟨w, rest, i, hp, hd, hi, he⟩
    obtain ⟨hinit, hbus⟩ := booted_of_exec he
    exact ⟨w, rest, i, hp, hd, hi, hinit, hbus, he⟩
  · cases (step_of_done hpin hs).symm.trans hstep
    exact ⟨rfl, rfl, rfl, rfl⟩
  · obtain ⟨hport, -, -, -, hresponses⟩ := resume_sameOutside ((step_busy hpin hb).symm.trans hstep)
    exact ⟨hport, hresponses⟩

end Sys2Proof.Machine
end

section
/-! PROOFS. The end of a request (60_exceptions.md R211, R214, R216) and the wait that never ends (R219): where a run comes to rest,
phase and position agree, so what has ended has nothing left to do. -/

namespace Sys2Proof.Machine

/-! ### Phase and position at rest -/

/-- A run comes to rest with phase and position in agreement. -/
theorem State.PositionFits.run {s t : State} (h : s.PositionFits) (hr : s.run s.todo = .next t) : t.PositionFits := by
  refine State.run_induction (P := fun s _ => s.PositionFits) (Q := State.PositionFits)
    (fun _ _ _ _ _ _ => State.enter_positionFits _) ?stop (fun _ _ _ h _ => h) (fun _ h => h) s.todo s t h hr
  case stop =>
    intro s m rest t _ hl
    obtain ⟨-, -, -, hseq, htodo, -⟩ := leave_stop hl
    exact State.positionFits_of_not_busy (by simp [State.busy, hseq]) htodo

theorem exec_positionFits {i : Instr} {s t : State} (h : exec i s = .next t) : t.PositionFits := by
  obtain ⟨u, hu, hr⟩ := exec_next h
  exact (startOf_next_positionFits hu).run hr

/-- Where phase and position agree, a request that has ended has nothing left to do. -/
theorem State.PositionFits.todo_of_done {s : State} (h : s.PositionFits) (hs : s.seq = .done) : s.todo = [] := by
  simpa [State.PositionFits, State.busy, hs] using h

/-- Where phase and position agree, a busy block has the step of its phase first. -/
theorem State.PositionFits.todo_of_busy {s : State} (h : s.PositionFits) (hb : s.busy = true) :
    ∃ m rest, s.todo = m :: rest ∧ s.seq = m.phase := by
  rwa [State.PositionFits, if_pos hb] at h

/-- Settles O47: an instruction comes to rest waiting or ended, with phase and position in agreement. -/
theorem requestEndsOrWaitsForAnAnswer : Obligations.RequestEndsOrWaitsForAnAnswer := by
  intro i s t h
  have hrest := exec_restsIn h
  have hfit := exec_positionFits h
  cases hb : t.busy with
  | true =>
    obtain ⟨-, -, hwaits⟩ := hrest.waiting hb
    exact .inr ⟨hwaits, hfit⟩
  | false =>
    obtain ⟨hseq, -⟩ := hrest.ended hb
    exact .inl ⟨hseq, hfit.todo_of_done hseq⟩

/-- Settles O46: a request that exec has ended has come to rest in its instruction. -/
theorem outcomesAreThoseOfTheRequest : Obligations.OutcomesAreThoseOfTheRequest := by
  intro i s t h hseq
  obtain ⟨-, hmay, hdata⟩ := (exec_restsIn h).ended (by simp [State.busy, hseq])
  exact ⟨hmay, hdata⟩

/-! ### A call that fails -/

/-- A transport call that fails ends the request, and takes just its own answer. -/
theorem leave_transfer_of_failed {s : State} {m : Micro} {r : Reply} {rest : List Reply} (hm : m.phase = .wCall ∨ m.phase = .rCall)
    (hr : s.replies = r :: rest) (hbad : r.status ≠ .ok) : ∃ t, s.leave m = .stop t ∧ t.replies = rest := by
  cases m with
  | write stop bytes => exact ⟨_, leave_write_of_failed rfl hr hbad, rfl⟩
  | writeMirror => exact ⟨_, leave_write_of_failed rfl hr hbad, rfl⟩
  | read len base => exact ⟨_, leave_read_of_failed rfl hr hbad, rfl⟩
  | readMirror => exact ⟨_, leave_read_of_failed rfl hr hbad, rfl⟩
  | _ => simp [Micro.phase] at hm

/-- Settles O21: the failing call ends the request where it stands; and a request that has ended has nothing left to do, so that the step
after it only takes the response. -/
theorem failedCallIsNotRetried : Obligations.FailedCallIsNotRetried := by
  constructor
  · intro s r rest hfit hpin hs hr hbad
    have hb : s.busy = true := by rcases hs with hs | hs <;> simp [State.busy, hs]
    obtain ⟨m, path, ht, hm⟩ := hfit.todo_of_busy hb
    obtain ⟨t, hl, hreplies⟩ := leave_transfer_of_failed (hm ▸ hs) hr hbad
    obtain ⟨-, -, hcalls, -, htodo, -, -, -, hstatus, -⟩ := leave_stop hl
    refine ⟨t, ?_, hstatus, htodo, hcalls, hreplies⟩
    rw [step_busy hpin hb, State.resume_cons ht hm.symm, State.run_of_stop hl]
  · intro i s t hpin h hseq _
    obtain ⟨-, -, -, hpin', -⟩ := (exec_continuesFrom h).outside
    exact ⟨(exec_positionFits h).todo_of_done hseq, t.takeResponse, step_of_done (hpin'.trans hpin) hseq, rfl, rfl, rfl, rfl⟩

/-! ### A call that is never answered -/

/-- A block that waits is busy. -/
theorem State.busy_of_waits {s : State} (hw : s.waits = true) : s.busy = true := by
  cases hs : s.seq <;> simp [State.waits, State.busy, hs] at hw ⊢

/-- A block that waits stays in its step. -/
theorem leave_stay_of_waits {s : State} {m : Micro} (hs : s.seq = m.phase) (hw : s.waits = true) : s.leave m = .stay := by
  rw [State.waits, hs] at hw
  cases m with
  | write stop bytes => simp [State.leave, State.awaitWrite, List.isEmpty_iff.1 hw]
  | writeMirror => simp [State.leave, State.awaitWrite, List.isEmpty_iff.1 hw]
  | read len base => simp [State.leave, State.awaitRead, List.isEmpty_iff.1 hw]
  | readMirror => simp [State.leave, State.awaitReadMirror, State.awaitRead, List.isEmpty_iff.1 hw]
  | delay source => simp [State.leave, State.awaitDelay, eq_of_beq hw]
  | init => simp [State.leave, State.awaitInit, eq_of_beq hw]
  | _ => cases hw

/-- A waiting block stays as it is. -/
theorem step_of_waits {s : State} (hfit : s.PositionFits) (hpin : s.resetPin = false) (hw : s.waits = true) :
    step s = .next s := by
  have hb := State.busy_of_waits hw
  obtain ⟨m, rest, ht, hs⟩ := hfit.todo_of_busy hb
  rw [step_busy hpin hb, State.resume_cons ht hs.symm, State.run, leave_stay_of_waits hs hw]

/-- Settles O10: a step of a waiting block changes nothing, so neither does any number of them; a hardware reset makes it idle. -/
theorem unansweredCallHangsUntilReset : Obligations.UnansweredCallHangsUntilReset :=
  fun s hfit hpin hw => ⟨run_of_stutter core s (step_of_waits hfit hpin hw), _, step_of_resetPin rfl, rfl, rfl⟩

end Sys2Proof.Machine
end

section
/-! PROOFS. The machine that only the host drives stays one (70_reset_and_hazards.md R257): what entering and leaving a step do to
`State.HostDriven`, and from that what a run, a request and a step do. -/

namespace Sys2Proof.Machine

/-- A block that is not busy, with nothing left to do and no frame waiting, is driven by the host alone. -/
theorem State.hostDriven_of_not_busy {s : State} (hf : s.frames = []) (hb : s.busy = false) (ht : s.todo = []) : s.HostDriven where
  frames := hf
  position := State.positionFits_of_not_busy hb ht
  request := by simp [hb]
  reserved := by simp [ht]

/-- Going on from one step of a request's path to the next keeps the machine host-driven. -/
theorem State.HostDriven.enter_of_go {s t : State} {m : Micro} {rest : List Micro} (h : s.HostDriven) (ht : s.todo = m :: rest)
    (hl : s.leave m = .go t) : ({ t with todo := rest }.enter).HostDriven := by
  obtain ⟨⟨-, hframes, -⟩, -, -, -, hanswer, -⟩ := leave_go hl
  obtain ⟨i, hi, mode, hsuffix, hkind⟩ := h.request (State.busy_of_seq (h.position.seq_eq ht))
  rw [ht] at hsuffix
  obtain ⟨hfits, -⟩ := fitsPath_cons (fitsPath_of_suffix hsuffix (fitsPath_pathOf mode hi))
  have hserves : ({ t with todo := rest }.enter).Serves i :=
    ⟨mode, by simpa using (List.suffix_cons m rest).trans hsuffix, by simp [hanswer, hkind]⟩
  exact
    { frames := by simp [hframes, h.frames]
      position := State.enter_positionFits _
      request := fun _ => ⟨i, hi, hserves⟩
      reserved := (State.MirrorKeepsReserved.leave_go h.reserved ht hfits hl).enter }

/-- A step that ends the request keeps it host-driven. -/
theorem State.HostDriven.of_stop {s t : State} {m : Micro} (h : s.HostDriven) (hl : s.leave m = .stop t) : t.HostDriven := by
  obtain ⟨⟨-, hframes, -⟩, -, -, hseq, htodo, -⟩ := leave_stop hl
  exact State.hostDriven_of_not_busy (hframes.trans h.frames) (by simp [State.busy, hseq]) htodo

/-- A run keeps it host-driven. -/
theorem State.HostDriven.run {s t : State} (h : s.HostDriven) (hr : s.run s.todo = .next t) : t.HostDriven :=
  State.run_induction (P := fun s path => s.HostDriven ∧ s.todo = path) (Q := State.HostDriven)
    (fun _ _ _ _ ⟨hd, ht⟩ hl => ⟨hd.enter_of_go ht hl, State.enter_todo _⟩)
    (fun _ _ _ _ ⟨hd, _⟩ hl => hd.of_stop hl)
    (fun _ _ _ ⟨hd, _⟩ _ => hd)
    (fun _ ⟨hd, _⟩ => hd)
    s.todo s t ⟨h, rfl⟩ hr

/-- Where a host request starts, the machine is host-driven: a path that writes the mirror has the register read before it. -/
theorem startOf_hostDriven {i : Instr} (hi : isRequest i = true) {s u : State} (hf : s.frames = []) (h : startOf i s = .next u) :
    u.HostDriven := by
  have hfit := startOf_next_positionFits h
  obtain ⟨-, v, rfl⟩ := startOf_next h
  exact
    { frames := (State.enter_frames _).trans hf
      position := hfit
      request := fun _ => ⟨i, hi, s.session.acquisitionMode, by simp [State.start], by simp [State.start]⟩
      reserved := by
        rw [State.start_todo]
        exact fun hw hn => absurd (readMirror_mem_of_writeMirror_mem _ i hw) hn }

/-- A host request keeps the machine host-driven. -/
theorem exec_hostDriven {i : Instr} (hi : isRequest i = true) {s t : State} (hf : s.frames = []) (h : exec i s = .next t) :
    t.HostDriven := by
  obtain ⟨u, hu, hr⟩ := exec_next h
  exact (startOf_hostDriven hi hf hu).run hr

/-- Settles O57: a reset and a response taken leave nothing to do, what the port gives is a host request, and a request that goes on runs
along its path. -/
theorem everyStepStaysHostDriven : Obligations.EveryStepStaysHostDriven := by
  intro s t h hstep
  cases hpin : s.resetPin with
  | true =>
    cases (step_of_resetPin hpin).symm.trans hstep
    exact State.hostDriven_of_not_busy h.frames rfl rfl
  | false =>
    rcases s.idle_or_done_or_busy with hs | hs | hb
    · rcases idle_step_cases h.frames hpin hs hstep with ⟨-, rfl⟩ | ⟨w, rest, i, -, -, hi, he⟩
      · exact h
      · exact exec_hostDriven (s := s.accept w rest) hi h.frames he
    · cases (step_of_done hpin hs).symm.trans hstep
      exact State.hostDriven_of_not_busy h.frames rfl rfl
    · obtain ⟨m, rest, ht, -, hr⟩ := State.resume_next ((step_busy hpin hb).symm.trans hstep)
      exact h.run (ht ▸ hr)

end Sys2Proof.Machine
end
